-- ==== Sys2Proof/Word.lean ====
section
/-! DEFINITION. The word types of NEFDEC: 8-bit bytes of DATA, META, HROM and the bus address; 16-bit bus words, lanes and
curve samples (00_scope.md R9, R10). -/

namespace Sys2Proof

/-- A byte of DATA, META or HROM, a payload, a bus address. -/
abbrev Byte := BitVec 8

/-- A 16-bit register, lane, curve sample or bus word. -/
abbrev Word := BitVec 16

end Sys2Proof
end

