-- ==== Sys2Proof/Config.lean ====
section
/-! DEFINITION. What one realisation of the block fixes (00_scope.md R11) and the one free value of the model
(10_state.md R35). Everything here is plain data or an opaque constant: nothing in Lean can compute a value of those. -/

namespace Sys2Proof

/-- The class of a metadata header by its two version bytes (42_curve.md R164). -/
inductive HdrClass where
  | lossy2
  | direct
  | fwupdate
  | unknown
  deriving DecidableEq, Repr, Inhabited

/-- A packed table: 16 counts, then 16 payload bytes (30_encoding.md R90). -/
abbrev PackedTable := Vector Byte 32

/-- The open parameters of 00_scope.md R11. `hdrClasses` is P_HDRCLASS as plain data: the pairs `VER0 * 256 + VER1` that
some class claims, with the class; a pair that is not listed is of class UNKNOWN ("every pair the other three do not claim",
42_curve.md R164). `fwSkip` is used by no rule (R166). -/
structure Config where
  hrom : Vector PackedTable 6
  hdrBE : Bool
  hdrClasses : List (Nat × HdrClass)
  splitOff : Nat
  fwSkip : Nat
  deriving DecidableEq, Repr, Inhabited

/-- The realisation's own value of the open parameters: free (log entry 1). The spec states no value. -/
opaque Config.params : Config

/-- The n-th unspecified 16-bit value that HostRead(CDATA) returns where the curve entry is not readable (10_state.md R35,
93_implementation_defined.md U6): free (log entry 4). -/
opaque Config.freeRead : Nat → Word

end Sys2Proof
end

