-- ==== Sys2Proof/Syntax.lean ====
section
/-! DEFINITION. The instructions of NEFDEC: one constructor for each row of spec/opcode_table.json (30_encoding.md R108):
the twelve host commands (R103), the three classes of pixel record (R93), and the 86 codewords of the six candidate tables.
A constructor `t<t>c<k>` is the pixel record whose codeword is the k-th code of candidate table t; its `raw` is the raw
field (R97), absent where the record has no raw bit. -/

namespace Sys2Proof

inductive Instr where
  /-- NOP, 0x0000 (44_host_commands.md R234). -/
  | nop
  /-- RESET, 0x0100 (R235). -/
  | reset
  /-- HDR, 0x0200 (R236). -/
  | hdr
  /-- CINT, 0x0300 (R237). -/
  | cint
  /-- CTRIM, 0x0400 (R238). -/
  | ctrim
  /-- HBLD t, 0x0500 with t in the low byte, 0 to 5 (R239). -/
  | hbld (t : Byte)
  /-- START, 0x0600 (R241). -/
  | start
  /-- STEP, 0x0700 (R242). -/
  | step
  /-- RUN, 0x0800 (R243). -/
  | run
  /-- BRST, 0x0900 (R245). -/
  | brst
  /-- RDB n, 0x0A00 with n in the low byte, 0 to 16 (R246). -/
  | rdb (n : Byte)
  /-- HDEC, 0x0B00 (R247). -/
  | hdec
  /-- PX.ZERO: payload 0x00, no raw bit (30_encoding.md R93). -/
  | pxZero
  /-- PX.PLAIN: payload `len` (1 to 15, shl 0), `len` raw bits (R93). -/
  | pxPlain (len raw : Nat)
  /-- PX.SCALED: payload `16 * shl + len` with 1 <= shl <= len, `len - shl` raw bits (R93). -/
  | pxScaled (len shl raw : Nat)
  -- the codewords of the candidate tables (R108); each comment is the row's pattern
  | t0c00 (raw : BitVec 5)  -- T0.C00.PX05 00rrrrr
  | t0c01 (raw : BitVec 4)  -- T0.C01.PX04 010rrrr
  | t0c02 (raw : BitVec 3)  -- T0.C02.PX03 011rrr
  | t0c03 (raw : BitVec 6)  -- T0.C03.PX06 100rrrrrr
  | t0c04 (raw : BitVec 2)  -- T0.C04.PX02 101rr
  | t0c05 (raw : BitVec 7)  -- T0.C05.PX07 110rrrrrrr
  | t0c06 (raw : BitVec 1)  -- T0.C06.PX01 1110r
  | t0c07  -- T0.C07.PX00 11110
  | t0c08 (raw : BitVec 8)  -- T0.C08.PX08 111110rrrrrrrr
  | t0c09 (raw : BitVec 9)  -- T0.C09.PX09 1111110rrrrrrrrr
  | t0c10 (raw : BitVec 11)  -- T0.C10.PX0B 11111110rrrrrrrrrrr
  | t0c11 (raw : BitVec 10)  -- T0.C11.PX0A 111111110rrrrrrrrrr
  | t0c12 (raw : BitVec 12)  -- T0.C12.PX0C 1111111110rrrrrrrrrrrr
  | t0c13  -- T0.C13.PX00 1111111111
  | t1c00 (raw : BitVec 6)  -- T1.C00.PX39 00rrrrrr
  | t1c01 (raw : BitVec 5)  -- T1.C01.PX5A 010rrrrr
  | t1c02 (raw : BitVec 5)  -- T1.C02.PX38 011rrrrr
  | t1c03 (raw : BitVec 5)  -- T1.C03.PX27 100rrrrr
  | t1c04 (raw : BitVec 5)  -- T1.C04.PX16 101rrrrr
  | t1c05 (raw : BitVec 5)  -- T1.C05.PX05 110rrrrr
  | t1c06 (raw : BitVec 4)  -- T1.C06.PX04 1110rrrr
  | t1c07 (raw : BitVec 3)  -- T1.C07.PX03 11110rrr
  | t1c08 (raw : BitVec 2)  -- T1.C08.PX02 111110rr
  | t1c09 (raw : BitVec 1)  -- T1.C09.PX01 1111110r
  | t1c10  -- T1.C10.PX00 11111110
  | t1c11 (raw : BitVec 11)  -- T1.C11.PX0B 111111110rrrrrrrrrrr
  | t1c12 (raw : BitVec 12)  -- T1.C12.PX0C 1111111110rrrrrrrrrrrr
  | t1c13 (raw : BitVec 12)  -- T1.C13.PX0C 1111111111rrrrrrrrrrrr
  | t2c00 (raw : BitVec 5)  -- T2.C00.PX05 00rrrrr
  | t2c01 (raw : BitVec 4)  -- T2.C01.PX04 010rrrr
  | t2c02 (raw : BitVec 6)  -- T2.C02.PX06 011rrrrrr
  | t2c03 (raw : BitVec 3)  -- T2.C03.PX03 100rrr
  | t2c04 (raw : BitVec 7)  -- T2.C04.PX07 101rrrrrrr
  | t2c05 (raw : BitVec 2)  -- T2.C05.PX02 1100rr
  | t2c06 (raw : BitVec 8)  -- T2.C06.PX08 1101rrrrrrrr
  | t2c07 (raw : BitVec 1)  -- T2.C07.PX01 11100r
  | t2c08 (raw : BitVec 9)  -- T2.C08.PX09 11101rrrrrrrrr
  | t2c09  -- T2.C09.PX00 11110
  | t2c10 (raw : BitVec 10)  -- T2.C10.PX0A 111110rrrrrrrrrr
  | t2c11 (raw : BitVec 11)  -- T2.C11.PX0B 1111110rrrrrrrrrrr
  | t2c12 (raw : BitVec 12)  -- T2.C12.PX0C 1111111rrrrrrrrrrrr
  | t3c00 (raw : BitVec 5)  -- T3.C00.PX05 00rrrrr
  | t3c01 (raw : BitVec 6)  -- T3.C01.PX06 010rrrrrr
  | t3c02 (raw : BitVec 4)  -- T3.C02.PX04 011rrrr
  | t3c03 (raw : BitVec 7)  -- T3.C03.PX07 100rrrrrrr
  | t3c04 (raw : BitVec 8)  -- T3.C04.PX08 101rrrrrrrr
  | t3c05 (raw : BitVec 3)  -- T3.C05.PX03 1100rrr
  | t3c06 (raw : BitVec 9)  -- T3.C06.PX09 1101rrrrrrrrr
  | t3c07 (raw : BitVec 2)  -- T3.C07.PX02 1110rr
  | t3c08 (raw : BitVec 1)  -- T3.C08.PX01 11110r
  | t3c09  -- T3.C09.PX00 111110
  | t3c10 (raw : BitVec 10)  -- T3.C10.PX0A 1111110rrrrrrrrrr
  | t3c11 (raw : BitVec 11)  -- T3.C11.PX0B 11111110rrrrrrrrrrr
  | t3c12 (raw : BitVec 12)  -- T3.C12.PX0C 111111110rrrrrrrrrrrr
  | t3c13 (raw : BitVec 13)  -- T3.C13.PX0D 1111111110rrrrrrrrrrrrr
  | t3c14 (raw : BitVec 14)  -- T3.C14.PX0E 1111111111rrrrrrrrrrrrrr
  | t4c00 (raw : BitVec 8)  -- T4.C00.PX08 00rrrrrrrr
  | t4c01 (raw : BitVec 7)  -- T4.C01.PX5C 010rrrrrrr
  | t4c02 (raw : BitVec 7)  -- T4.C02.PX4B 011rrrrrrr
  | t4c03 (raw : BitVec 7)  -- T4.C03.PX3A 100rrrrrrr
  | t4c04 (raw : BitVec 7)  -- T4.C04.PX29 101rrrrrrr
  | t4c05 (raw : BitVec 7)  -- T4.C05.PX07 110rrrrrrr
  | t4c06 (raw : BitVec 6)  -- T4.C06.PX06 1110rrrrrr
  | t4c07 (raw : BitVec 5)  -- T4.C07.PX05 11110rrrrr
  | t4c08 (raw : BitVec 4)  -- T4.C08.PX04 111110rrrr
  | t4c09 (raw : BitVec 3)  -- T4.C09.PX03 1111110rrr
  | t4c10 (raw : BitVec 2)  -- T4.C10.PX02 11111110rr
  | t4c11 (raw : BitVec 1)  -- T4.C11.PX01 111111110r
  | t4c12  -- T4.C12.PX00 1111111110
  | t4c13 (raw : BitVec 13)  -- T4.C13.PX0D 11111111110rrrrrrrrrrrrr
  | t4c14 (raw : BitVec 14)  -- T4.C14.PX0E 11111111111rrrrrrrrrrrrrr
  | t5c00 (raw : BitVec 7)  -- T5.C00.PX07 00rrrrrrr
  | t5c01 (raw : BitVec 6)  -- T5.C01.PX06 010rrrrrr
  | t5c02 (raw : BitVec 8)  -- T5.C02.PX08 011rrrrrrrr
  | t5c03 (raw : BitVec 5)  -- T5.C03.PX05 100rrrrr
  | t5c04 (raw : BitVec 9)  -- T5.C04.PX09 101rrrrrrrrr
  | t5c05 (raw : BitVec 4)  -- T5.C05.PX04 1100rrrr
  | t5c06 (raw : BitVec 10)  -- T5.C06.PX0A 1101rrrrrrrrrr
  | t5c07 (raw : BitVec 3)  -- T5.C07.PX03 11100rrr
  | t5c08 (raw : BitVec 11)  -- T5.C08.PX0B 11101rrrrrrrrrrr
  | t5c09 (raw : BitVec 12)  -- T5.C09.PX0C 111100rrrrrrrrrrrr
  | t5c10 (raw : BitVec 2)  -- T5.C10.PX02 111101rr
  | t5c11  -- T5.C11.PX00 111110
  | t5c12 (raw : BitVec 1)  -- T5.C12.PX01 1111110r
  | t5c13 (raw : BitVec 13)  -- T5.C13.PX0D 11111110rrrrrrrrrrrrr
  | t5c14 (raw : BitVec 14)  -- T5.C14.PX0E 11111111rrrrrrrrrrrrrr
  deriving DecidableEq, Repr

end Sys2Proof
end

