-- ==== Sys2Proof/WellFormed.lean ====
section
/-! DEFINITION. Which instructions the encodings admit (30_encoding.md R93, R103, R104). The raw field of a codeword row
has its width in its type, so those rows carry no check. -/

namespace Sys2Proof

/-- Operand ranges: `HBLD t` with t <= 5 and `RDB n` with n <= 16 (R104); PX.PLAIN with 1 <= len <= 15 and a raw field of
`len` bits; PX.SCALED with 1 <= shl <= len <= 15 and a raw field of `len - shl` bits (R93). -/
def Instr.wf : Instr → Bool
  | .nop => true
  | .reset => true
  | .hdr => true
  | .cint => true
  | .ctrim => true
  | .hbld t => decide (t.toNat ≤ 5)
  | .start => true
  | .step => true
  | .run => true
  | .brst => true
  | .rdb n => decide (n.toNat ≤ 16)
  | .hdec => true
  | .pxZero => true
  | .pxPlain len raw => decide (1 ≤ len) && decide (len ≤ 15) && decide (raw < 2 ^ len)
  | .pxScaled len shl raw =>
    decide (1 ≤ shl) && decide (shl ≤ len) && decide (len ≤ 15) && decide (raw < 2 ^ (len - shl))
  | .t0c00 _ => true
  | .t0c01 _ => true
  | .t0c02 _ => true
  | .t0c03 _ => true
  | .t0c04 _ => true
  | .t0c05 _ => true
  | .t0c06 _ => true
  | .t0c07 => true
  | .t0c08 _ => true
  | .t0c09 _ => true
  | .t0c10 _ => true
  | .t0c11 _ => true
  | .t0c12 _ => true
  | .t0c13 => true
  | .t1c00 _ => true
  | .t1c01 _ => true
  | .t1c02 _ => true
  | .t1c03 _ => true
  | .t1c04 _ => true
  | .t1c05 _ => true
  | .t1c06 _ => true
  | .t1c07 _ => true
  | .t1c08 _ => true
  | .t1c09 _ => true
  | .t1c10 => true
  | .t1c11 _ => true
  | .t1c12 _ => true
  | .t1c13 _ => true
  | .t2c00 _ => true
  | .t2c01 _ => true
  | .t2c02 _ => true
  | .t2c03 _ => true
  | .t2c04 _ => true
  | .t2c05 _ => true
  | .t2c06 _ => true
  | .t2c07 _ => true
  | .t2c08 _ => true
  | .t2c09 => true
  | .t2c10 _ => true
  | .t2c11 _ => true
  | .t2c12 _ => true
  | .t3c00 _ => true
  | .t3c01 _ => true
  | .t3c02 _ => true
  | .t3c03 _ => true
  | .t3c04 _ => true
  | .t3c05 _ => true
  | .t3c06 _ => true
  | .t3c07 _ => true
  | .t3c08 _ => true
  | .t3c09 => true
  | .t3c10 _ => true
  | .t3c11 _ => true
  | .t3c12 _ => true
  | .t3c13 _ => true
  | .t3c14 _ => true
  | .t4c00 _ => true
  | .t4c01 _ => true
  | .t4c02 _ => true
  | .t4c03 _ => true
  | .t4c04 _ => true
  | .t4c05 _ => true
  | .t4c06 _ => true
  | .t4c07 _ => true
  | .t4c08 _ => true
  | .t4c09 _ => true
  | .t4c10 _ => true
  | .t4c11 _ => true
  | .t4c12 => true
  | .t4c13 _ => true
  | .t4c14 _ => true
  | .t5c00 _ => true
  | .t5c01 _ => true
  | .t5c02 _ => true
  | .t5c03 _ => true
  | .t5c04 _ => true
  | .t5c05 _ => true
  | .t5c06 _ => true
  | .t5c07 _ => true
  | .t5c08 _ => true
  | .t5c09 _ => true
  | .t5c10 _ => true
  | .t5c11 => true
  | .t5c12 _ => true
  | .t5c13 _ => true
  | .t5c14 _ => true

end Sys2Proof
end

