-- ==== Sys2Proof/Decode.lean ====
section
/-! DEFINITION. Encodings (30_encoding.md): the command word (R102 to R104), the payload byte (R92, R93), the codewords of
the candidate tables (R94, R108). First the decoder, total and rejecting by name; then the encoder; then the two together
as the opcode table numbers its bits. A word of the host bus, a payload byte with its raw bits and a stretch of DATA are
three different things the spec encodes, so an encoding says which of them it is. -/

namespace Sys2Proof

/-- Why an encoding stands for no instruction. -/
inductive DecodeError where
  /-- w[15:8] is not one of 0x00 to 0x0B (R104). -/
  | reservedOpcode
  /-- An opcode that takes no argument, with w[7:0] not 0 (R104). -/
  | argNotZero
  /-- HBLD above 5 or RDB above 16 (R104). -/
  | argOutOfRange
  /-- A payload with shl > len (R93, R100). -/
  | illegalPayload
  /-- The raw field has not `len - shl` bits (R97). -/
  | rawWidth
  /-- The bits begin with no codeword of the table (R100). -/
  | noCodeword
  /-- Bits are left after the record. -/
  | trailingBits
  deriving DecidableEq, Repr

/-- An encoding: a command word of the bus, a payload byte with the raw bits after it, or the bits of one whole record in
DATA under candidate table `t`, first bit first. -/
inductive Encoded where
  | cmd (w : Word)
  | record (payload : Byte) (raw : List Bool)
  | stream (t : Nat) (bits : List Bool)
  deriving DecidableEq, Repr

/-- The `n` low bits of `v`, most significant first (20_memory.md R67). -/
def bitsOf : Nat → Nat → List Bool
  | 0, _ => []
  | n + 1, v => v.testBit n :: bitsOf n v

/-- The number whose bits are given most significant first (20_memory.md R67). -/
def natOfBits (bits : List Bool) : Nat :=
  bits.foldl (fun acc b => 2 * acc + b.toNat) 0

/-- `len = payload[3:0]` (R92). -/
def payloadLen (payload : Byte) : Nat := payload.toNat % 16

/-- `shl = payload[7:4]` (R92). -/
def payloadShl (payload : Byte) : Nat := payload.toNat / 16

/-- How many raw bits follow the codeword (R97). -/
def payloadRawBits (payload : Byte) : Nat := payloadLen payload - payloadShl payload

/-- The command word, by R104: the opcode first, then the argument. -/
def decodeCommand (w : Word) : Except DecodeError Instr :=
  let opcode := w.toNat / 256
  let arg := w.toNat % 256
  let plain (i : Instr) : Except DecodeError Instr := if arg = 0 then .ok i else .error .argNotZero
  match opcode with
  | 0x00 => plain .nop
  | 0x01 => plain .reset
  | 0x02 => plain .hdr
  | 0x03 => plain .cint
  | 0x04 => plain .ctrim
  | 0x05 => if arg ≤ 5 then .ok (.hbld (BitVec.ofNat 8 arg)) else .error .argOutOfRange
  | 0x06 => plain .start
  | 0x07 => plain .step
  | 0x08 => plain .run
  | 0x09 => plain .brst
  | 0x0A => if arg ≤ 16 then .ok (.rdb (BitVec.ofNat 8 arg)) else .error .argOutOfRange
  | 0x0B => plain .hdec
  | _ => .error .reservedOpcode

/-- The payload class, checked in the order PX.ZERO, PX.PLAIN, PX.SCALED (R93, R108), with its raw field. -/
def classInstr (payload : Byte) (raw : Nat) : Except DecodeError Instr :=
  if payload = 0 then .ok .pxZero
  else if payloadShl payload = 0 then .ok (.pxPlain (payloadLen payload) raw)
  else if payloadShl payload ≤ payloadLen payload then
    .ok (.pxScaled (payloadLen payload) (payloadShl payload) raw)
  else .error .illegalPayload

/-- A payload byte and the raw bits after it. -/
def decodeRecord (payload : Byte) (raw : List Bool) : Except DecodeError Instr :=
  if payloadShl payload > payloadLen payload then .error .illegalPayload
  else if raw.length ≠ payloadRawBits payload then .error .rawWidth
  else classInstr payload (natOfBits raw)

/-- The six candidate packed tables of 93_implementation_defined.md G1 [PRESUMED, log entry 6: "from general knowledge, not
in source"]. They are not the block's HROM, which is open; the codeword rows of the opcode table hold under them. -/
def candidateHrom : Vector PackedTable 6 := #v[
  #v[0, 1, 5, 1, 1, 1, 1, 1, 1, 2, 0, 0, 0, 0, 0, 0,
    0x05, 0x04, 0x03, 0x06, 0x02, 0x07, 0x01, 0x00, 0x08, 0x09, 0x0b, 0x0a, 0x0c, 0x00, 0x00, 0x00],
  #v[0, 1, 5, 1, 1, 1, 1, 1, 1, 2, 0, 0, 0, 0, 0, 0,
    0x39, 0x5a, 0x38, 0x27, 0x16, 0x05, 0x04, 0x03, 0x02, 0x01, 0x00, 0x0b, 0x0c, 0x0c, 0x00, 0x00],
  #v[0, 1, 4, 2, 3, 1, 2, 0, 0, 0, 0, 0, 0, 0, 0, 0,
    0x05, 0x04, 0x06, 0x03, 0x07, 0x02, 0x08, 0x01, 0x09, 0x00, 0x0a, 0x0b, 0x0c, 0x00, 0x00, 0x00],
  #v[0, 1, 4, 3, 1, 1, 1, 1, 1, 2, 0, 0, 0, 0, 0, 0,
    0x05, 0x06, 0x04, 0x07, 0x08, 0x03, 0x09, 0x02, 0x01, 0x00, 0x0a, 0x0b, 0x0c, 0x0d, 0x0e, 0x00],
  #v[0, 1, 5, 1, 1, 1, 1, 1, 1, 1, 2, 0, 0, 0, 0, 0,
    0x08, 0x5c, 0x4b, 0x3a, 0x29, 0x07, 0x06, 0x05, 0x04, 0x03, 0x02, 0x01, 0x00, 0x0d, 0x0e, 0x00],
  #v[0, 1, 4, 2, 2, 3, 1, 2, 0, 0, 0, 0, 0, 0, 0, 0,
    0x07, 0x06, 0x08, 0x05, 0x09, 0x04, 0x0a, 0x03, 0x0b, 0x0c, 0x02, 0x00, 0x01, 0x0d, 0x0e, 0x00]]

/-- One codeword of a table: its length, its value, its payload, and the instruction it makes with a raw field. -/
structure CodeRow where
  clen : Nat
  code : Nat
  payload : Byte
  make : Nat → Instr

/-- The codewords of candidate table 0, in code order (rows T0 of the opcode table). -/
def codeRows0 : List CodeRow := [
  ⟨2, 0b00, 0x05, fun raw => .t0c00 (BitVec.ofNat 5 raw)⟩,
  ⟨3, 0b010, 0x04, fun raw => .t0c01 (BitVec.ofNat 4 raw)⟩,
  ⟨3, 0b011, 0x03, fun raw => .t0c02 (BitVec.ofNat 3 raw)⟩,
  ⟨3, 0b100, 0x06, fun raw => .t0c03 (BitVec.ofNat 6 raw)⟩,
  ⟨3, 0b101, 0x02, fun raw => .t0c04 (BitVec.ofNat 2 raw)⟩,
  ⟨3, 0b110, 0x07, fun raw => .t0c05 (BitVec.ofNat 7 raw)⟩,
  ⟨4, 0b1110, 0x01, fun raw => .t0c06 (BitVec.ofNat 1 raw)⟩,
  ⟨5, 0b11110, 0x00, fun _ => .t0c07⟩,
  ⟨6, 0b111110, 0x08, fun raw => .t0c08 (BitVec.ofNat 8 raw)⟩,
  ⟨7, 0b1111110, 0x09, fun raw => .t0c09 (BitVec.ofNat 9 raw)⟩,
  ⟨8, 0b11111110, 0x0B, fun raw => .t0c10 (BitVec.ofNat 11 raw)⟩,
  ⟨9, 0b111111110, 0x0A, fun raw => .t0c11 (BitVec.ofNat 10 raw)⟩,
  ⟨10, 0b1111111110, 0x0C, fun raw => .t0c12 (BitVec.ofNat 12 raw)⟩,
  ⟨10, 0b1111111111, 0x00, fun _ => .t0c13⟩]

/-- The codewords of candidate table 1, in code order (rows T1 of the opcode table). -/
def codeRows1 : List CodeRow := [
  ⟨2, 0b00, 0x39, fun raw => .t1c00 (BitVec.ofNat 6 raw)⟩,
  ⟨3, 0b010, 0x5A, fun raw => .t1c01 (BitVec.ofNat 5 raw)⟩,
  ⟨3, 0b011, 0x38, fun raw => .t1c02 (BitVec.ofNat 5 raw)⟩,
  ⟨3, 0b100, 0x27, fun raw => .t1c03 (BitVec.ofNat 5 raw)⟩,
  ⟨3, 0b101, 0x16, fun raw => .t1c04 (BitVec.ofNat 5 raw)⟩,
  ⟨3, 0b110, 0x05, fun raw => .t1c05 (BitVec.ofNat 5 raw)⟩,
  ⟨4, 0b1110, 0x04, fun raw => .t1c06 (BitVec.ofNat 4 raw)⟩,
  ⟨5, 0b11110, 0x03, fun raw => .t1c07 (BitVec.ofNat 3 raw)⟩,
  ⟨6, 0b111110, 0x02, fun raw => .t1c08 (BitVec.ofNat 2 raw)⟩,
  ⟨7, 0b1111110, 0x01, fun raw => .t1c09 (BitVec.ofNat 1 raw)⟩,
  ⟨8, 0b11111110, 0x00, fun _ => .t1c10⟩,
  ⟨9, 0b111111110, 0x0B, fun raw => .t1c11 (BitVec.ofNat 11 raw)⟩,
  ⟨10, 0b1111111110, 0x0C, fun raw => .t1c12 (BitVec.ofNat 12 raw)⟩,
  ⟨10, 0b1111111111, 0x0C, fun raw => .t1c13 (BitVec.ofNat 12 raw)⟩]

/-- The codewords of candidate table 2, in code order (rows T2 of the opcode table). -/
def codeRows2 : List CodeRow := [
  ⟨2, 0b00, 0x05, fun raw => .t2c00 (BitVec.ofNat 5 raw)⟩,
  ⟨3, 0b010, 0x04, fun raw => .t2c01 (BitVec.ofNat 4 raw)⟩,
  ⟨3, 0b011, 0x06, fun raw => .t2c02 (BitVec.ofNat 6 raw)⟩,
  ⟨3, 0b100, 0x03, fun raw => .t2c03 (BitVec.ofNat 3 raw)⟩,
  ⟨3, 0b101, 0x07, fun raw => .t2c04 (BitVec.ofNat 7 raw)⟩,
  ⟨4, 0b1100, 0x02, fun raw => .t2c05 (BitVec.ofNat 2 raw)⟩,
  ⟨4, 0b1101, 0x08, fun raw => .t2c06 (BitVec.ofNat 8 raw)⟩,
  ⟨5, 0b11100, 0x01, fun raw => .t2c07 (BitVec.ofNat 1 raw)⟩,
  ⟨5, 0b11101, 0x09, fun raw => .t2c08 (BitVec.ofNat 9 raw)⟩,
  ⟨5, 0b11110, 0x00, fun _ => .t2c09⟩,
  ⟨6, 0b111110, 0x0A, fun raw => .t2c10 (BitVec.ofNat 10 raw)⟩,
  ⟨7, 0b1111110, 0x0B, fun raw => .t2c11 (BitVec.ofNat 11 raw)⟩,
  ⟨7, 0b1111111, 0x0C, fun raw => .t2c12 (BitVec.ofNat 12 raw)⟩]

/-- The codewords of candidate table 3, in code order (rows T3 of the opcode table). -/
def codeRows3 : List CodeRow := [
  ⟨2, 0b00, 0x05, fun raw => .t3c00 (BitVec.ofNat 5 raw)⟩,
  ⟨3, 0b010, 0x06, fun raw => .t3c01 (BitVec.ofNat 6 raw)⟩,
  ⟨3, 0b011, 0x04, fun raw => .t3c02 (BitVec.ofNat 4 raw)⟩,
  ⟨3, 0b100, 0x07, fun raw => .t3c03 (BitVec.ofNat 7 raw)⟩,
  ⟨3, 0b101, 0x08, fun raw => .t3c04 (BitVec.ofNat 8 raw)⟩,
  ⟨4, 0b1100, 0x03, fun raw => .t3c05 (BitVec.ofNat 3 raw)⟩,
  ⟨4, 0b1101, 0x09, fun raw => .t3c06 (BitVec.ofNat 9 raw)⟩,
  ⟨4, 0b1110, 0x02, fun raw => .t3c07 (BitVec.ofNat 2 raw)⟩,
  ⟨5, 0b11110, 0x01, fun raw => .t3c08 (BitVec.ofNat 1 raw)⟩,
  ⟨6, 0b111110, 0x00, fun _ => .t3c09⟩,
  ⟨7, 0b1111110, 0x0A, fun raw => .t3c10 (BitVec.ofNat 10 raw)⟩,
  ⟨8, 0b11111110, 0x0B, fun raw => .t3c11 (BitVec.ofNat 11 raw)⟩,
  ⟨9, 0b111111110, 0x0C, fun raw => .t3c12 (BitVec.ofNat 12 raw)⟩,
  ⟨10, 0b1111111110, 0x0D, fun raw => .t3c13 (BitVec.ofNat 13 raw)⟩,
  ⟨10, 0b1111111111, 0x0E, fun raw => .t3c14 (BitVec.ofNat 14 raw)⟩]

/-- The codewords of candidate table 4, in code order (rows T4 of the opcode table). -/
def codeRows4 : List CodeRow := [
  ⟨2, 0b00, 0x08, fun raw => .t4c00 (BitVec.ofNat 8 raw)⟩,
  ⟨3, 0b010, 0x5C, fun raw => .t4c01 (BitVec.ofNat 7 raw)⟩,
  ⟨3, 0b011, 0x4B, fun raw => .t4c02 (BitVec.ofNat 7 raw)⟩,
  ⟨3, 0b100, 0x3A, fun raw => .t4c03 (BitVec.ofNat 7 raw)⟩,
  ⟨3, 0b101, 0x29, fun raw => .t4c04 (BitVec.ofNat 7 raw)⟩,
  ⟨3, 0b110, 0x07, fun raw => .t4c05 (BitVec.ofNat 7 raw)⟩,
  ⟨4, 0b1110, 0x06, fun raw => .t4c06 (BitVec.ofNat 6 raw)⟩,
  ⟨5, 0b11110, 0x05, fun raw => .t4c07 (BitVec.ofNat 5 raw)⟩,
  ⟨6, 0b111110, 0x04, fun raw => .t4c08 (BitVec.ofNat 4 raw)⟩,
  ⟨7, 0b1111110, 0x03, fun raw => .t4c09 (BitVec.ofNat 3 raw)⟩,
  ⟨8, 0b11111110, 0x02, fun raw => .t4c10 (BitVec.ofNat 2 raw)⟩,
  ⟨9, 0b111111110, 0x01, fun raw => .t4c11 (BitVec.ofNat 1 raw)⟩,
  ⟨10, 0b1111111110, 0x00, fun _ => .t4c12⟩,
  ⟨11, 0b11111111110, 0x0D, fun raw => .t4c13 (BitVec.ofNat 13 raw)⟩,
  ⟨11, 0b11111111111, 0x0E, fun raw => .t4c14 (BitVec.ofNat 14 raw)⟩]

/-- The codewords of candidate table 5, in code order (rows T5 of the opcode table). -/
def codeRows5 : List CodeRow := [
  ⟨2, 0b00, 0x07, fun raw => .t5c00 (BitVec.ofNat 7 raw)⟩,
  ⟨3, 0b010, 0x06, fun raw => .t5c01 (BitVec.ofNat 6 raw)⟩,
  ⟨3, 0b011, 0x08, fun raw => .t5c02 (BitVec.ofNat 8 raw)⟩,
  ⟨3, 0b100, 0x05, fun raw => .t5c03 (BitVec.ofNat 5 raw)⟩,
  ⟨3, 0b101, 0x09, fun raw => .t5c04 (BitVec.ofNat 9 raw)⟩,
  ⟨4, 0b1100, 0x04, fun raw => .t5c05 (BitVec.ofNat 4 raw)⟩,
  ⟨4, 0b1101, 0x0A, fun raw => .t5c06 (BitVec.ofNat 10 raw)⟩,
  ⟨5, 0b11100, 0x03, fun raw => .t5c07 (BitVec.ofNat 3 raw)⟩,
  ⟨5, 0b11101, 0x0B, fun raw => .t5c08 (BitVec.ofNat 11 raw)⟩,
  ⟨6, 0b111100, 0x0C, fun raw => .t5c09 (BitVec.ofNat 12 raw)⟩,
  ⟨6, 0b111101, 0x02, fun raw => .t5c10 (BitVec.ofNat 2 raw)⟩,
  ⟨6, 0b111110, 0x00, fun _ => .t5c11⟩,
  ⟨7, 0b1111110, 0x01, fun raw => .t5c12 (BitVec.ofNat 1 raw)⟩,
  ⟨8, 0b11111110, 0x0D, fun raw => .t5c13 (BitVec.ofNat 13 raw)⟩,
  ⟨8, 0b11111111, 0x0E, fun raw => .t5c14 (BitVec.ofNat 14 raw)⟩]

/-- The codewords of candidate table `t`; there is no table beyond 5. -/
def codeRows : Nat → List CodeRow
  | 0 => codeRows0
  | 1 => codeRows1
  | 2 => codeRows2
  | 3 => codeRows3
  | 4 => codeRows4
  | 5 => codeRows5
  | _ => []

/-- The instruction of the codeword `(clen, code)` of candidate table `t`. -/
def codeInstr (t clen code raw : Nat) : Option Instr :=
  ((codeRows t).find? (fun r => r.clen == clen && r.code == code)).map (fun r => r.make raw)

/-- Reads one record of candidate table `t` off the front of `bits` and answers the bits after it (R95, R97). -/
def decodeStream (t : Nat) (bits : List Bool) : Except DecodeError (Instr × List Bool) :=
  match (codeRows t).find? (fun r =>
      decide (r.clen ≤ bits.length) && natOfBits (bits.take r.clen) == r.code) with
  | none => .error .noCodeword
  | some r =>
    let rest := bits.drop r.clen
    let n := payloadRawBits r.payload
    if rest.length < n then .error .rawWidth
    else .ok (r.make (natOfBits (rest.take n)), rest.drop n)

/-- The decoder: total, rejecting by name. -/
def decode : Encoded → Except DecodeError Instr
  | .cmd w => decodeCommand w
  | .record payload raw => decodeRecord payload raw
  | .stream t bits =>
    match decodeStream t bits with
    | .ok (i, []) => .ok i
    | .ok (_, _ :: _) => .error .trailingBits
    | .error e => .error e

/-- The instruction a fetched pixel record stands for: under a table that is the candidate one, the row of its codeword;
under any other table, its payload class (R108: the codeword rows hold only under the candidate value of HROM). -/
def recordInstr (table : PackedTable) (t clen code : Nat) (payload : Byte) (raw : Nat) : Option Instr :=
  if candidateHrom[t]? = some table then codeInstr t clen code raw
  else
    match classInstr payload raw with
    | .ok i => some i
    | .error _ => none

/-- The codewords R94 gives a packed table: for each length up to 16 and each code of that length, `(length, codeword,
payload)`; from one length to the next the running codeword is doubled. -/
def canonicalCodes (s : PackedTable) : List (Nat × Nat × Byte) :=
  let lengths := (List.range 16).flatMap (fun l => List.replicate (s.toList.getD l 0).toNat (l + 1))
  let go := lengths.foldl (fun (acc : List (Nat × Nat × Byte) × Nat × Nat) l =>
    let code := acc.2.1 <<< (l - acc.2.2)
    (acc.1 ++ [(l, code, s.toList.getD (16 + acc.1.length) 0)], code + 1, l)) ([], 0, 0)
  go.1

/-- The encoder: the words of an instruction, written from R103, R93 and the rows' patterns. -/
def encode : Instr → Encoded
  | .nop => .cmd 0x0000
  | .reset => .cmd 0x0100
  | .hdr => .cmd 0x0200
  | .cint => .cmd 0x0300
  | .ctrim => .cmd 0x0400
  | .hbld t => .cmd (0x05#8 ++ t)
  | .start => .cmd 0x0600
  | .step => .cmd 0x0700
  | .run => .cmd 0x0800
  | .brst => .cmd 0x0900
  | .rdb n => .cmd (0x0A#8 ++ n)
  | .hdec => .cmd 0x0B00
  | .pxZero => .record 0x00 []
  | .pxPlain len raw => .record (BitVec.ofNat 8 len) (bitsOf len raw)
  | .pxScaled len shl raw => .record (BitVec.ofNat 8 (16 * shl + len)) (bitsOf (len - shl) raw)
  | .t0c00 raw => .stream 0 (bitsOf 2 0b00 ++ bitsOf 5 raw.toNat)
  | .t0c01 raw => .stream 0 (bitsOf 3 0b010 ++ bitsOf 4 raw.toNat)
  | .t0c02 raw => .stream 0 (bitsOf 3 0b011 ++ bitsOf 3 raw.toNat)
  | .t0c03 raw => .stream 0 (bitsOf 3 0b100 ++ bitsOf 6 raw.toNat)
  | .t0c04 raw => .stream 0 (bitsOf 3 0b101 ++ bitsOf 2 raw.toNat)
  | .t0c05 raw => .stream 0 (bitsOf 3 0b110 ++ bitsOf 7 raw.toNat)
  | .t0c06 raw => .stream 0 (bitsOf 4 0b1110 ++ bitsOf 1 raw.toNat)
  | .t0c07 => .stream 0 (bitsOf 5 0b11110)
  | .t0c08 raw => .stream 0 (bitsOf 6 0b111110 ++ bitsOf 8 raw.toNat)
  | .t0c09 raw => .stream 0 (bitsOf 7 0b1111110 ++ bitsOf 9 raw.toNat)
  | .t0c10 raw => .stream 0 (bitsOf 8 0b11111110 ++ bitsOf 11 raw.toNat)
  | .t0c11 raw => .stream 0 (bitsOf 9 0b111111110 ++ bitsOf 10 raw.toNat)
  | .t0c12 raw => .stream 0 (bitsOf 10 0b1111111110 ++ bitsOf 12 raw.toNat)
  | .t0c13 => .stream 0 (bitsOf 10 0b1111111111)
  | .t1c00 raw => .stream 1 (bitsOf 2 0b00 ++ bitsOf 6 raw.toNat)
  | .t1c01 raw => .stream 1 (bitsOf 3 0b010 ++ bitsOf 5 raw.toNat)
  | .t1c02 raw => .stream 1 (bitsOf 3 0b011 ++ bitsOf 5 raw.toNat)
  | .t1c03 raw => .stream 1 (bitsOf 3 0b100 ++ bitsOf 5 raw.toNat)
  | .t1c04 raw => .stream 1 (bitsOf 3 0b101 ++ bitsOf 5 raw.toNat)
  | .t1c05 raw => .stream 1 (bitsOf 3 0b110 ++ bitsOf 5 raw.toNat)
  | .t1c06 raw => .stream 1 (bitsOf 4 0b1110 ++ bitsOf 4 raw.toNat)
  | .t1c07 raw => .stream 1 (bitsOf 5 0b11110 ++ bitsOf 3 raw.toNat)
  | .t1c08 raw => .stream 1 (bitsOf 6 0b111110 ++ bitsOf 2 raw.toNat)
  | .t1c09 raw => .stream 1 (bitsOf 7 0b1111110 ++ bitsOf 1 raw.toNat)
  | .t1c10 => .stream 1 (bitsOf 8 0b11111110)
  | .t1c11 raw => .stream 1 (bitsOf 9 0b111111110 ++ bitsOf 11 raw.toNat)
  | .t1c12 raw => .stream 1 (bitsOf 10 0b1111111110 ++ bitsOf 12 raw.toNat)
  | .t1c13 raw => .stream 1 (bitsOf 10 0b1111111111 ++ bitsOf 12 raw.toNat)
  | .t2c00 raw => .stream 2 (bitsOf 2 0b00 ++ bitsOf 5 raw.toNat)
  | .t2c01 raw => .stream 2 (bitsOf 3 0b010 ++ bitsOf 4 raw.toNat)
  | .t2c02 raw => .stream 2 (bitsOf 3 0b011 ++ bitsOf 6 raw.toNat)
  | .t2c03 raw => .stream 2 (bitsOf 3 0b100 ++ bitsOf 3 raw.toNat)
  | .t2c04 raw => .stream 2 (bitsOf 3 0b101 ++ bitsOf 7 raw.toNat)
  | .t2c05 raw => .stream 2 (bitsOf 4 0b1100 ++ bitsOf 2 raw.toNat)
  | .t2c06 raw => .stream 2 (bitsOf 4 0b1101 ++ bitsOf 8 raw.toNat)
  | .t2c07 raw => .stream 2 (bitsOf 5 0b11100 ++ bitsOf 1 raw.toNat)
  | .t2c08 raw => .stream 2 (bitsOf 5 0b11101 ++ bitsOf 9 raw.toNat)
  | .t2c09 => .stream 2 (bitsOf 5 0b11110)
  | .t2c10 raw => .stream 2 (bitsOf 6 0b111110 ++ bitsOf 10 raw.toNat)
  | .t2c11 raw => .stream 2 (bitsOf 7 0b1111110 ++ bitsOf 11 raw.toNat)
  | .t2c12 raw => .stream 2 (bitsOf 7 0b1111111 ++ bitsOf 12 raw.toNat)
  | .t3c00 raw => .stream 3 (bitsOf 2 0b00 ++ bitsOf 5 raw.toNat)
  | .t3c01 raw => .stream 3 (bitsOf 3 0b010 ++ bitsOf 6 raw.toNat)
  | .t3c02 raw => .stream 3 (bitsOf 3 0b011 ++ bitsOf 4 raw.toNat)
  | .t3c03 raw => .stream 3 (bitsOf 3 0b100 ++ bitsOf 7 raw.toNat)
  | .t3c04 raw => .stream 3 (bitsOf 3 0b101 ++ bitsOf 8 raw.toNat)
  | .t3c05 raw => .stream 3 (bitsOf 4 0b1100 ++ bitsOf 3 raw.toNat)
  | .t3c06 raw => .stream 3 (bitsOf 4 0b1101 ++ bitsOf 9 raw.toNat)
  | .t3c07 raw => .stream 3 (bitsOf 4 0b1110 ++ bitsOf 2 raw.toNat)
  | .t3c08 raw => .stream 3 (bitsOf 5 0b11110 ++ bitsOf 1 raw.toNat)
  | .t3c09 => .stream 3 (bitsOf 6 0b111110)
  | .t3c10 raw => .stream 3 (bitsOf 7 0b1111110 ++ bitsOf 10 raw.toNat)
  | .t3c11 raw => .stream 3 (bitsOf 8 0b11111110 ++ bitsOf 11 raw.toNat)
  | .t3c12 raw => .stream 3 (bitsOf 9 0b111111110 ++ bitsOf 12 raw.toNat)
  | .t3c13 raw => .stream 3 (bitsOf 10 0b1111111110 ++ bitsOf 13 raw.toNat)
  | .t3c14 raw => .stream 3 (bitsOf 10 0b1111111111 ++ bitsOf 14 raw.toNat)
  | .t4c00 raw => .stream 4 (bitsOf 2 0b00 ++ bitsOf 8 raw.toNat)
  | .t4c01 raw => .stream 4 (bitsOf 3 0b010 ++ bitsOf 7 raw.toNat)
  | .t4c02 raw => .stream 4 (bitsOf 3 0b011 ++ bitsOf 7 raw.toNat)
  | .t4c03 raw => .stream 4 (bitsOf 3 0b100 ++ bitsOf 7 raw.toNat)
  | .t4c04 raw => .stream 4 (bitsOf 3 0b101 ++ bitsOf 7 raw.toNat)
  | .t4c05 raw => .stream 4 (bitsOf 3 0b110 ++ bitsOf 7 raw.toNat)
  | .t4c06 raw => .stream 4 (bitsOf 4 0b1110 ++ bitsOf 6 raw.toNat)
  | .t4c07 raw => .stream 4 (bitsOf 5 0b11110 ++ bitsOf 5 raw.toNat)
  | .t4c08 raw => .stream 4 (bitsOf 6 0b111110 ++ bitsOf 4 raw.toNat)
  | .t4c09 raw => .stream 4 (bitsOf 7 0b1111110 ++ bitsOf 3 raw.toNat)
  | .t4c10 raw => .stream 4 (bitsOf 8 0b11111110 ++ bitsOf 2 raw.toNat)
  | .t4c11 raw => .stream 4 (bitsOf 9 0b111111110 ++ bitsOf 1 raw.toNat)
  | .t4c12 => .stream 4 (bitsOf 10 0b1111111110)
  | .t4c13 raw => .stream 4 (bitsOf 11 0b11111111110 ++ bitsOf 13 raw.toNat)
  | .t4c14 raw => .stream 4 (bitsOf 11 0b11111111111 ++ bitsOf 14 raw.toNat)
  | .t5c00 raw => .stream 5 (bitsOf 2 0b00 ++ bitsOf 7 raw.toNat)
  | .t5c01 raw => .stream 5 (bitsOf 3 0b010 ++ bitsOf 6 raw.toNat)
  | .t5c02 raw => .stream 5 (bitsOf 3 0b011 ++ bitsOf 8 raw.toNat)
  | .t5c03 raw => .stream 5 (bitsOf 3 0b100 ++ bitsOf 5 raw.toNat)
  | .t5c04 raw => .stream 5 (bitsOf 3 0b101 ++ bitsOf 9 raw.toNat)
  | .t5c05 raw => .stream 5 (bitsOf 4 0b1100 ++ bitsOf 4 raw.toNat)
  | .t5c06 raw => .stream 5 (bitsOf 4 0b1101 ++ bitsOf 10 raw.toNat)
  | .t5c07 raw => .stream 5 (bitsOf 5 0b11100 ++ bitsOf 3 raw.toNat)
  | .t5c08 raw => .stream 5 (bitsOf 5 0b11101 ++ bitsOf 11 raw.toNat)
  | .t5c09 raw => .stream 5 (bitsOf 6 0b111100 ++ bitsOf 12 raw.toNat)
  | .t5c10 raw => .stream 5 (bitsOf 6 0b111101 ++ bitsOf 2 raw.toNat)
  | .t5c11 => .stream 5 (bitsOf 6 0b111110)
  | .t5c12 raw => .stream 5 (bitsOf 7 0b1111110 ++ bitsOf 1 raw.toNat)
  | .t5c13 raw => .stream 5 (bitsOf 8 0b11111110 ++ bitsOf 13 raw.toNat)
  | .t5c14 raw => .stream 5 (bitsOf 8 0b11111111 ++ bitsOf 14 raw.toNat)

/-- How many bits the opcode table gives an encoding (a payload row has 8; its raw bits are operand bits after it). -/
def Encoded.width : Encoded → Nat
  | .cmd _ => 16
  | .record _ _ => 8
  | .stream _ bits => bits.length

/-- The first candidate table, in the opcode table's order, under which the bits are one whole record. -/
def firstStream (bits : List Bool) : List Nat → Option Instr
  | [] => none
  | t :: ts =>
    match decode (.stream t bits) with
    | .ok i => some i
    | .error _ => firstStream bits ts

/-- A whole record under some candidate table in the low bits of `w`, of the greatest width from `n` down (`k` widths) that
holds `w`: the opcode table gives a record's bits no padding, and here they come in whole bytes. -/
def firstWidth (w : Nat) : Nat → Nat → Option Instr
  | 0, _ => none
  | k + 1, n =>
    if w < 2 ^ n then
      match firstStream (bitsOf n w) [0, 1, 2, 3, 4, 5] with
      | some i => some i
      | none => firstWidth w k (n - 1)
    else none

/-- The instruction of a table word of `nbits` bits (bit 0 the least significant; the first bit of a record is the most
significant). Command words, payload bytes and records under six tables share their words, so the word is read as the
FIRST kind of row of the opcode table that it fits: a 16-bit word as a command, where a reserved argument (R104) is refused
and only a reserved opcode is read on; an 8-bit word as a payload byte whose raw bits are all 0; and else as a record under
tables 0 to 5 (log entry 10). -/
def decodeTableWord (nbits w : Nat) : Option Instr :=
  let asCmd := if nbits = 16 then decode (.cmd (BitVec.ofNat 16 w)) else .error .reservedOpcode
  let payload := BitVec.ofNat 8 w
  let asRecord := if nbits = 8 then decode (.record payload (List.replicate (payloadRawBits payload) false))
    else .error .illegalPayload
  match asCmd with
  | .ok i => some i
  | .error .reservedOpcode =>
    match asRecord with
    | .ok i => some i
    | .error _ => firstWidth w 8 nbits
  | .error _ => none

end Sys2Proof
end

