-- ==== Sys2Proof/Machine/State.lean ====
section
/-! DEFINITION. The state of NEFDEC (10_state.md) as plain data, the two reason types of a step, and the state after reset
(R43, 70_reset_and_hazards.md R300). -/

namespace Sys2Proof.Machine

/-- RUN (10_state.md R26): 0 IDLE, 1 ACTIVE, 2 DONE, 3 FAULT. -/
inductive RunState where
  | idle
  | active
  | done
  | fault
  deriving DecidableEq, Repr, Inhabited

/-- MODE (R25): 0 NORMAL, 1 SPLIT. -/
inductive Mode where
  | normal
  | split
  deriving DecidableEq, Repr, Inhabited

/-- KIND (60_exceptions.md R261); the values 6 and 7 are never written. -/
inductive FaultKind where
  | none
  | malformedHeader
  | huffmanTableInvalid
  | bitstreamExhausted
  | predictorOverflow
  | hostProtocol
  deriving DecidableEq, Repr, Inhabited

/-- CAUSE (60_exceptions.md R262). -/
inductive FaultCause where
  | none
  | verUnknown
  | verFwupdate
  | badCount
  | curveUnwritten
  | maxlenZero
  | tooManySymbols
  | oversubscribed
  | badPayload
  | codeUnassigned
  | dataExhausted
  | metaExhausted
  | bounds
  | badCmd
  | badState
  | badConfig
  | noTable
  | badAccess
  deriving DecidableEq, Repr, Inhabited

/-- An assigned entry of HSLOT (10_state.md R37): `clen` 1 to 16 and the payload. -/
structure Slot where
  clen : BitVec 5
  payload : Byte
  deriving DecidableEq, Repr, Inhabited

/-- One raster write event `(row, vcol, value)` (20_memory.md R65). -/
structure RasterEvent where
  row : Word
  vcol : Word
  value : Word
  deriving DecidableEq, Repr, Inhabited

/-- What the host may do to the block: one bus write, one bus read (44_host_commands.md R230, R231), or the hard reset
input (70_reset_and_hazards.md R300). -/
inductive HostAccess where
  | write (addr : Byte) (v : Word)
  | read (addr : Byte)
  | hardReset
  deriving DecidableEq, Repr, Inhabited

/-- Every piece of state the spec gives the block (10_state.md), the two byte sources and the raster outside it (R39, R40),
and three fields of the model's own: `hostIn`, `hostOut` and `draws`. -/
structure State where
  /-- VPRED[0][0] (R20). -/
  vpred00 : Word
  /-- VPRED[0][1] (R20). -/
  vpred01 : Word
  /-- VPRED[1][0] (R20). -/
  vpred10 : Word
  /-- VPRED[1][1] (R20). -/
  vpred11 : Word
  /-- HPRED[0] (R21). -/
  hpred0 : Word
  /-- HPRED[1] (R21). -/
  hpred1 : Word
  /-- BPBYTE, the byte index of the bit pointer (R23). -/
  bpByte : BitVec 32
  /-- BPBIT, the bits already consumed of that byte (R23). -/
  bpBit : BitVec 3
  /-- ROW of the next pixel (R24). -/
  row : Word
  /-- COL of the next pixel (R24). -/
  col : Word
  /-- MODE (R25). -/
  mode : Mode
  /-- RUN (R26). -/
  run : RunState
  /-- TVALID (R27). -/
  tvalid : Bool
  /-- KIND of the fault record (R28). -/
  kind : FaultKind
  /-- CAUSE of the fault record (R28). -/
  cause : FaultCause
  /-- FROW of the fault record (R28). -/
  frow : Word
  /-- FCOL of the fault record (R28). -/
  fcol : Word
  /-- RESULT (R34). -/
  result : Word
  /-- BPS, the bit depth (R31). -/
  bps : Word
  /-- FLAGS[0], LOSSLESS (R31); FLAGS[15:1] are hardwired zero and have no storage (R30). -/
  lossless : Bool
  /-- HEIGHT (R31). -/
  height : Word
  /-- RAWW (R31). -/
  raww : Word
  /-- VISW (R31). -/
  visw : Word
  /-- LMARGIN (R31). -/
  lmargin : Word
  /-- SPLIT, the split row, 0 for none (R30). -/
  split : Word
  /-- CSIZE (R30). -/
  csize : Word
  /-- VER: VER0 in the high byte, VER1 in the low (R30). -/
  ver : Word
  /-- VSEED0 (R30). -/
  vseed0 : Word
  /-- VSEED1 (R30). -/
  vseed1 : Word
  /-- VSEED2 (R30). -/
  vseed2 : Word
  /-- VSEED3 (R30). -/
  vseed3 : Word
  /-- MIN (R32). -/
  minReg : Word
  /-- MAX (R32). -/
  maxReg : Word
  /-- TSEL (R33). -/
  tsel : BitVec 3
  /-- MAXLEN (R33). -/
  maxlen : BitVec 5
  /-- FILL, not on the bus (R33). -/
  fill : BitVec 17
  /-- SRCLEN, two halves on the bus (R30, 20_memory.md R69). -/
  srclen : BitVec 32
  /-- METALEN, two halves on the bus (R30, R69). -/
  metalen : BitVec 32
  /-- CADDR (R35). -/
  caddr : Word
  /-- HSLOT: the assigned entries, slot numbers rising (R37). -/
  hslot : List (Nat × Slot)
  /-- CURVE: the entries whose written-bit is set, indices rising (R38). -/
  curve : List (Nat × Word)
  /-- HROM and the other open parameters, constant (R36, 00_scope.md R11). -/
  cfg : Config
  /-- DATA (20_memory.md R60), a byte memory in canonical form; the block never writes it. -/
  data : List Host.Cell
  /-- META (R61), a byte memory in canonical form; the block never writes it. -/
  metaMem : List Host.Cell
  /-- RASTER: the write events so far, oldest first (R39). -/
  raster : List RasterEvent
  /-- The model's own: the host accesses still to be served, oldest first (44_host_commands.md R232). -/
  hostIn : List HostAccess
  /-- The model's own: what the host's reads returned so far, oldest first (R231). -/
  hostOut : List Word
  /-- The model's own: how many unspecified values HostRead(CDATA) has drawn (R35). -/
  draws : Nat
  deriving DecidableEq, Repr

/-- Why a step stops with a fault of the MODEL. The faults the spec describes are not here: they are next states with
RUN = FAULT (60_exceptions.md R270). -/
inductive Fault where
  /-- A split transition with TSEL + 1 > 5: HROM has tables 0 to 5 only (10_state.md R36). Raised by STEP and RUN, in
  states no run reaches (TSEL is 0 or 3 there, 43_predictive.md R203). Safe: the model stops and claims nothing. -/
  | noSuchTable (t : Nat)
  deriving DecidableEq, Repr

/-- Why a step refuses an instruction. -/
inductive Refusal where
  /-- The arm of `exec` has no meaning yet. No arm of this model answers it. Safe: the model claims nothing. -/
  | notModelled (mnemonic : String)
  deriving DecidableEq, Repr

/-- The state after hard reset (10_state.md R43): every register 0, RUN = IDLE, MODE = NORMAL, every HSLOT entry
unassigned, every CURVE entry not written. What reset does not touch (HROM, DATA, META, RASTER) and the model's own fields
stand at the values of log entries 1 to 4. -/
def State.reset : State where
  vpred00 := 0
  vpred01 := 0
  vpred10 := 0
  vpred11 := 0
  hpred0 := 0
  hpred1 := 0
  bpByte := 0
  bpBit := 0
  row := 0
  col := 0
  mode := .normal
  run := .idle
  tvalid := false
  kind := .none
  cause := .none
  frow := 0
  fcol := 0
  result := 0
  bps := 0
  lossless := false
  height := 0
  raww := 0
  visw := 0
  lmargin := 0
  split := 0
  csize := 0
  ver := 0
  vseed0 := 0
  vseed1 := 0
  vseed2 := 0
  vseed3 := 0
  minReg := 0
  maxReg := 0
  tsel := 0
  maxlen := 0
  fill := 0
  srclen := 0
  metalen := 0
  caddr := 0
  hslot := []
  curve := []
  cfg := Config.params
  data := []
  metaMem := []
  raster := []
  hostIn := []
  hostOut := []
  draws := 0

end Sys2Proof.Machine
end

