-- ==== Sys2Proof/Machine/Ops.lean ====
section
/-! DEFINITION. The shared operations over memories and registers: the sparse stores, DATA and META, the lanes, fault entry
(60_exceptions.md R270) and beside it the only way out of it, reset (R273, 70_reset_and_hazards.md R300), and the result of
an operation that may raise. -/

namespace Sys2Proof.Machine

/-! ### Results -/

/-- What an internal operation does: it answers a value in a new state, or it raised a fault of the spec and the state is
the one fault entry left; nothing after the raise runs (00_scope.md R15). -/
inductive Res (α : Type) where
  | ok (a : α) (s : State)
  | raised (s : State)
  deriving DecidableEq, Repr

/-- Sequencing: what was raised stays raised. -/
def Res.bind {α β : Type} (r : Res α) (f : α → State → Res β) : Res β :=
  match r with
  | .ok a s => f a s
  | .raised s => .raised s

/-- The state an operation leaves, raised or not. -/
def Res.state {α : Type} (r : Res α) : State :=
  match r with
  | .ok _ s => s
  | .raised s => s

/-! ### Sparse stores: entries by rising key -/

/-- The value at key `k`, if there is one. -/
def storeGet {β : Type} : List (Nat × β) → Nat → Option β
  | [], _ => none
  | (k', v) :: rest, k => if k' = k then some v else storeGet rest k

/-- Sets the entry of key `k`, keeping the keys rising. -/
def storeSet {β : Type} : List (Nat × β) → Nat → β → List (Nat × β)
  | [], k, v => [(k, v)]
  | (k', v') :: rest, k, v =>
    if k < k' then (k, v) :: (k', v') :: rest
    else if k = k' then (k, v) :: rest
    else (k', v') :: storeSet rest k v

/-- Removes the entry of key `k`. -/
def storeErase {β : Type} : List (Nat × β) → Nat → List (Nat × β)
  | [], _ => []
  | (k', v') :: rest, k => if k' = k then rest else (k', v') :: storeErase rest k

/-- Sets every key from `p` to `p + n - 1` to `v`. -/
def storeSetRange {β : Type} (m : List (Nat × β)) (p n : Nat) (v : β) : List (Nat × β) :=
  m.filter (fun e => decide (e.1 < p)) ++ (List.range' p n).map (fun q => (q, v))
    ++ m.filter (fun e => decide (p + n ≤ e.1))

/-- Removes every key below `n`. -/
def storeClearBelow {β : Type} (m : List (Nat × β)) (n : Nat) : List (Nat × β) :=
  m.filter (fun e => decide (n ≤ e.1))

/-- The keys rise strictly. -/
def storeRising {β : Type} : List (Nat × β) → Bool
  | [] => true
  | [_] => true
  | e :: e' :: rest => decide (e.1 < e'.1) && storeRising (e' :: rest)

/-! ### DATA and META: byte memories. An address that is not listed reads as 0x00 (log entry 2). -/

/-- The byte at address `a`. -/
def memRead (m : List Host.Cell) (a : Nat) : Byte :=
  match storeGet m a with
  | some b => b
  | none => 0

/-- Sets the byte at address `a`; writing 0x00 removes the entry. The block itself never writes DATA or META
(20_memory.md R64); this is how their contents are supplied. -/
def memWrite (m : List Host.Cell) (a : Nat) (b : Byte) : List Host.Cell :=
  if b = 0 then storeErase m a else storeSet m a b

/-- Sets the bytes at `a`, `a + 1`, and on. -/
def memWriteBytes (m : List Host.Cell) (a : Nat) : List Byte → List Host.Cell
  | [] => m
  | b :: rest => memWriteBytes (memWrite m a b) (a + 1) rest

/-- The canonical form: addresses strictly rising and no entry equal to what an unlisted address reads as. -/
def Memory.wf (m : List Host.Cell) : Bool :=
  storeRising m && m.all (fun e => decide (e.2 ≠ 0))

/-! ### Fault entry, and the way out -/

/-- The kind a cause refines (60_exceptions.md R262). -/
def FaultCause.kind : FaultCause → FaultKind
  | .none => .none
  | .verUnknown => .malformedHeader
  | .verFwupdate => .malformedHeader
  | .badCount => .malformedHeader
  | .curveUnwritten => .malformedHeader
  | .maxlenZero => .huffmanTableInvalid
  | .tooManySymbols => .huffmanTableInvalid
  | .oversubscribed => .huffmanTableInvalid
  | .badPayload => .huffmanTableInvalid
  | .codeUnassigned => .huffmanTableInvalid
  | .dataExhausted => .bitstreamExhausted
  | .metaExhausted => .bitstreamExhausted
  | .bounds => .predictorOverflow
  | .badCmd => .hostProtocol
  | .badState => .hostProtocol
  | .badConfig => .hostProtocol
  | .noTable => .hostProtocol
  | .badAccess => .hostProtocol

/-- `raise K(c)`, and `refuse K(c)` where nothing was changed first (60_exceptions.md R270): the fault record takes the
kind, the cause and the position, and RUN becomes FAULT. Nothing else is written. -/
def State.raise (s : State) (c : FaultCause) : State :=
  { s with kind := c.kind, cause := c, frow := s.row, fcol := s.col, run := .fault }

/-- RESETALL (70_reset_and_hazards.md R300, R301): every piece of state takes its reset value; HROM and the parameters,
DATA, META and the raster are not touched, nor are the model's own fields. It is the only way out of FAULT (R273). -/
def resetAll (s : State) : State :=
  { State.reset with
    cfg := s.cfg, data := s.data, metaMem := s.metaMem, raster := s.raster,
    hostIn := s.hostIn, hostOut := s.hostOut, draws := s.draws }

/-! ### The lanes -/

/-- VPRED[r][c] (10_state.md R20); a parity is false for 0 and true for 1. -/
def State.vpred (s : State) (r c : Bool) : Word :=
  match r, c with
  | false, false => s.vpred00
  | false, true => s.vpred01
  | true, false => s.vpred10
  | true, true => s.vpred11

/-- `VPRED[r][c] <- v`. -/
def State.setVpred (s : State) (r c : Bool) (v : Word) : State :=
  match r, c with
  | false, false => { s with vpred00 := v }
  | false, true => { s with vpred01 := v }
  | true, false => { s with vpred10 := v }
  | true, true => { s with vpred11 := v }

/-- HPRED[k] (R21). -/
def State.hpred (s : State) (k : Bool) : Word :=
  match k with
  | false => s.hpred0
  | true => s.hpred1

/-- `HPRED[k] <- v`. -/
def State.setHpred (s : State) (k : Bool) (v : Word) : State :=
  match k with
  | false => { s with hpred0 := v }
  | true => { s with hpred1 := v }

/-- `BP <- (b, i)` (R23). -/
def State.setBp (s : State) (b : BitVec 32) (i : BitVec 3) : State :=
  { s with bpByte := b, bpBit := i }

/-! ### The curve store -/

/-- CurveRead(i) (42_curve.md R162). -/
def curveRead (i : Nat) (s : State) : Res Word :=
  if i > 16384 then .raised (s.raise .curveUnwritten)
  else
    match storeGet s.curve i with
    | some v => .ok v s
    | none => .raised (s.raise .curveUnwritten)

/-- CurveWrite(i, v) (R163): no fault; every caller keeps i at most 16384. -/
def curveWrite (i : Nat) (v : Word) (s : State) : State :=
  { s with curve := storeSet s.curve i v }

/-- CurveClear (R163): every written-bit to 0. -/
def curveClear (s : State) : State :=
  { s with curve := [] }

/-! ### The raster -/

/-- MemWrite(RASTER, (row, vcol), 2, v) (20_memory.md R65): one more event. -/
def rasterWrite (row vcol v : Word) (s : State) : State :=
  { s with raster := s.raster ++ [⟨row, vcol, v⟩] }

end Sys2Proof.Machine
end

