-- ==== Sys2Proof/Machine/Operands.lean ====
section
/-! DEFINITION. The operand of a pixel record, the residual (30_encoding.md R99; 43_predictive.md R192 to R195), and the
signed reading of a lane. -/

namespace Sys2Proof.Machine

/-- One record as fetched: the codeword with its length, the payload and the raw field (30_encoding.md R97). -/
structure Record where
  clen : Nat
  code : Nat
  payload : Byte
  raw : Nat
  deriving DecidableEq, Repr

/-- `d0 = (((raw << 1) + 1) << shl) >> 1`, unbounded (43_predictive.md R193). -/
def scaled (shl raw : Nat) : Nat := (((raw <<< 1) + 1) <<< shl) >>> 1

/-- `diff` (R194, R195): where len >= 1 and bit len - 1 of d0 is clear, `2^len` is subtracted, less 1 if shl is 0. The
formula, not the prose after it, is what counts (90_conflicts.md C1). -/
def residual (len shl raw : Nat) : Int :=
  let d0 := scaled shl raw
  if 1 ≤ len ∧ d0.testBit (len - 1) = false then
    (d0 : Int) - ((1 <<< len : Nat) - (if shl = 0 then 1 else 0))
  else d0

/-- `clamp(s16(pred), 0, 0x3fff)` (42_curve.md R172). -/
def curveIndex (pred : Word) : Nat := min pred.toInt.toNat 0x3fff

end Sys2Proof.Machine
end

