-- ==== Sys2Proof/Machine/Flags.lean ====
section
/-! DEFINITION. The flags (10_state.md R25 to R29): their codes on the bus, the gating by RUN (44_host_commands.md R240),
and the two conditions of a pixel step. There are no arithmetic condition codes (R29). -/

namespace Sys2Proof.Machine

/-- The code of RUN (R26). -/
def RunState.code : RunState → Nat
  | .idle => 0
  | .active => 1
  | .done => 2
  | .fault => 3

/-- The code of MODE (R25). -/
def Mode.code : Mode → Nat
  | .normal => 0
  | .split => 1

/-- The code of KIND (60_exceptions.md R261). -/
def FaultKind.code : FaultKind → Nat
  | .none => 0
  | .malformedHeader => 1
  | .huffmanTableInvalid => 2
  | .bitstreamExhausted => 3
  | .predictorOverflow => 4
  | .hostProtocol => 5

/-- The code of CAUSE (60_exceptions.md R262). -/
def FaultCause.code : FaultCause → Nat
  | .none => 0x00
  | .verUnknown => 0x10
  | .verFwupdate => 0x11
  | .badCount => 0x12
  | .curveUnwritten => 0x13
  | .maxlenZero => 0x20
  | .tooManySymbols => 0x21
  | .oversubscribed => 0x22
  | .badPayload => 0x23
  | .codeUnassigned => 0x24
  | .dataExhausted => 0x30
  | .metaExhausted => 0x31
  | .bounds => 0x40
  | .badCmd => 0x50
  | .badState => 0x51
  | .badConfig => 0x52
  | .noTable => 0x53
  | .badAccess => 0x54

/-- STATUS as read (R30): `TVALID << 3 | MODE << 2 | RUN`. -/
def statusWord (s : State) : Word :=
  BitVec.ofNat 16 (8 * s.tvalid.toNat + 4 * s.mode.code + s.run.code)

/-- FAULT as read (R30): `CAUSE << 8 | KIND`. -/
def faultWord (s : State) : Word :=
  BitVec.ofNat 16 (256 * s.cause.code + s.kind.code)

/-- Commands allowed in IDLE only: HDR, CINT, CTRIM, HBLD, START (R240). -/
def allowIdle : RunState → Bool
  | .idle => true
  | .active => false
  | .done => false
  | .fault => false

/-- Commands allowed in ACTIVE only: STEP, RUN, and with them the pixel records they run (R240). -/
def allowActive : RunState → Bool
  | .idle => false
  | .active => true
  | .done => false
  | .fault => false

/-- Commands allowed in IDLE and ACTIVE: BRST, RDB, HDEC (R240). -/
def allowIdleActive : RunState → Bool
  | .idle => true
  | .active => true
  | .done => false
  | .fault => false

/-- Commands allowed in every state in which a command runs at all: NOP (R240). -/
def allowAny : RunState → Bool
  | .idle => true
  | .active => true
  | .done => true
  | .fault => false

/-- The gate of a command (R230, R233, R240): in FAULT the write is ignored; in a state that does not allow the command it
is refused with BAD_STATE; else the command runs. -/
def gate (allow : RunState → Bool) (s : State) (body : Host.Outcome State Fault Refusal) :
    Host.Outcome State Fault Refusal :=
  if s.run = .fault then .next s
  else if allow s.run then body
  else .next (s.raise .badState)

/-- The bounds check of step 5 fails: `((pred + MIN) mod 2^16) >= MAX`, unsigned (43_predictive.md R198). -/
def outOfBounds (s : State) (pred : Word) : Bool := decide (s.maxReg.toNat ≤ (pred + s.minReg).toNat)

/-- The pixel lies in the visible window: `COL >= LMARGIN and COL - LMARGIN < VISW` (R200). -/
def inWindow (s : State) : Bool :=
  decide (s.lmargin.toNat ≤ s.col.toNat) && decide (s.col.toNat - s.lmargin.toNat < s.visw.toNat)

/-- The row-start check of R202: the split transition is due. -/
def splitDue (s : State) : Bool :=
  decide (s.col = 0) && decide (s.split ≠ 0) && decide (s.row = s.split) && decide (s.mode = .normal)

end Sys2Proof.Machine
end

