-- ==== Sys2Proof/Machine/BitReader.lean ====
section
/-! DEFINITION. The bit reader, unit BR (40_bitreader.md). Its only state is BP; the lookahead `peek` changes none and is
used by the flat realisation of the symbol decoder alone (R126). -/

namespace Sys2Proof.Machine

/-- `DataBit(B, b) = MemRead(DATA, B, 1)[7 - b]` (R121). -/
def dataBit (s : State) (byte bit : Nat) : Bool := (memRead s.data byte).getLsbD (7 - bit)

/-- RDBIT (R122): DATA_EXHAUSTED, with BP where it was, if no bit is left; else the bit at BP, and BP one bit on. -/
def rdbit (s : State) : Res Bool :=
  if s.srclen.toNat ≤ s.bpByte.toNat then .raised (s.raise .dataExhausted)
  else
    let v := dataBit s s.bpByte.toNat s.bpBit.toNat
    if s.bpBit = 7 then .ok v (s.setBp (s.bpByte + 1) 0)
    else .ok v (s.setBp s.bpByte (s.bpBit + 1))

/-- The loop of RDBITS: `v <- (v << 1) + RDBIT`, `n` times. -/
def rdbitsFrom : Nat → Nat → State → Res Nat
  | 0, v, s => .ok v s
  | n + 1, v, s => (rdbit s).bind fun b s' => rdbitsFrom n (2 * v + b.toNat) s'

/-- RDBITS(n) (R123): the first bit read is the most significant. -/
def rdbits (n : Nat) (s : State) : Res Nat := rdbitsFrom n 0 s

/-- BRRESET (R124): to the next byte boundary, unless BP is on one. -/
def brreset (s : State) : State :=
  if s.bpBit ≠ 0 then s.setBp (s.bpByte + 1) 0 else s

/-- The position of BP in bits from the start of DATA (10_state.md R23). -/
def bitPos (s : State) : Nat := 8 * s.bpByte.toNat + s.bpBit.toNat

/-- How many bits of DATA are left at BP. -/
def bitsLeft (s : State) : Nat := 8 * s.srclen.toNat - bitPos s

/-- BP at bit position `p`. -/
def State.setBitPos (s : State) (p : Nat) : State :=
  s.setBp (BitVec.ofNat 32 (p / 8)) (BitVec.ofNat 3 (p % 8))

/-- PEEK(n) (R126): the next `n` bits, 0 for each bit at or beyond (SRCLEN, 0). Changes nothing and never faults. -/
def peek (n : Nat) (s : State) : Nat :=
  natOfBits ((List.range n).map fun i =>
    let p := bitPos s + i
    decide (p / 8 < s.srclen.toNat) && dataBit s (p / 8) (p % 8))

end Sys2Proof.Machine
end

