-- ==== Sys2Proof/Machine/Huffman.lean ====
section
/-! DEFINITION. The table builder and the symbol decoder, unit HT (41_huffman.md). -/

namespace Sys2Proof.Machine

/-- HROM[t] (10_state.md R36). Callers ask for t up to 5; there is no other table. -/
def hromTable (s : State) (t : Nat) : PackedTable := (s.cfg.hrom[t]?).getD (Vector.replicate 32 0)

/-- `S[j]`. -/
def tableByte (table : PackedTable) (j : Nat) : Byte := (table[j]?).getD 0

/-- `S[l - 1]`, the number of codes of length `l` (30_encoding.md R90). -/
def codeCount (table : PackedTable) (l : Nat) : Nat := (tableByte table (l - 1)).toNat

/-- The largest length up to `l` with a nonzero count, 0 if there is none (41_huffman.md R142, check 1). -/
def scanMaxLen (table : PackedTable) : Nat → Nat
  | 0 => 0
  | l + 1 => if codeCount table (l + 1) ≠ 0 then l + 1 else scanMaxLen table l

/-- The number of codes of lengths 1 to `l`. -/
def sumCounts (table : PackedTable) : Nat → Nat
  | 0 => 0
  | l + 1 => sumCounts table l + codeCount table (l + 1)

/-- The lengths of the codes of lengths 1 to `l`, in code order (30_encoding.md R90). -/
def codeLengths (table : PackedTable) : Nat → List Nat
  | 0 => []
  | l + 1 => codeLengths table l ++ List.replicate (codeCount table (l + 1)) (l + 1)

/-- Slot assignment (R143, R144): for each code in order, checks (3) and (4) of R142, then its `2^(M - l)` slots. Answers
the slot counter at the end. -/
def assignCodes (table : PackedTable) (m : Nat) : List Nat → Nat → Nat → State → Res Nat
  | [], p, _, s => .ok p s
  | l :: ls, p, k, s =>
    let n := 2 ^ (m - l)
    if p + n > 2 ^ m then .raised (s.raise .oversubscribed)
    else
      let pay := tableByte table (16 + k)
      if payloadShl pay > payloadLen pay then .raised (s.raise .badPayload)
      else
        assignCodes table m ls (p + n) (k + 1)
          { s with hslot := storeSetRange s.hslot p n ⟨BitVec.ofNat 5 l, pay⟩ }

/-- HBUILD(t) (R144), for t in 0 to 5. -/
def hbuild (t : Nat) (s : State) : Res Unit :=
  let table := hromTable s t
  let m := scanMaxLen table 16
  let s1 := { s with tvalid := false }
  if m = 0 then .raised (s1.raise .maxlenZero)
  else if sumCounts table 16 > 16 then .raised (s1.raise .tooManySymbols)
  else
    let s2 := { s1 with maxlen := BitVec.ofNat 5 m, hslot := storeClearBelow s1.hslot (2 ^ m) }
    (assignCodes table m (codeLengths table m) 0 0 s2).bind fun p s3 =>
      .ok () { s3 with fill := BitVec.ofNat 17 p, tsel := BitVec.ofNat 3 t, tvalid := true }

/-- A decoded symbol: the codeword with its length, and the payload. -/
structure Symbol where
  clen : Nat
  code : Nat
  payload : Byte
  deriving DecidableEq, Repr

/-- The walk of HDEC (R145) with `n` lengths left, at length `l`. A slot below FILL that is not assigned, and lengths that
run out, cannot happen with a built table; they end in CODE_UNASSIGNED (log entry 7). -/
def hdecFrom : Nat → Nat → Nat → State → Res Symbol
  | 0, _, _, s => .raised (s.raise .codeUnassigned)
  | n + 1, l, code, s =>
    (rdbit s).bind fun b s' =>
      let code' := 2 * code + b.toNat
      let q := code' <<< (s'.maxlen.toNat - l)
      if s'.fill.toNat ≤ q then .raised (s'.raise .codeUnassigned)
      else
        match storeGet s'.hslot q with
        | some e => if e.clen.toNat = l then .ok ⟨l, code', e.payload⟩ s' else hdecFrom n (l + 1) code' s'
        | none => hdecFrom n (l + 1) code' s'

/-- HDEC (R145): the bit-serial walk. -/
def hdec (s : State) : Res Symbol := hdecFrom s.maxlen.toNat 1 0 s

/-- The least length from `l` on, of `n` lengths, whose prefix of `i` begins at or beyond FILL (R150). -/
def leastOpen (m fill i : Nat) : Nat → Nat → Nat
  | 0, l => l
  | n + 1, l => if fill ≤ (i >>> (m - l)) <<< (m - l) then l else leastOpen m fill i n (l + 1)

/-- The flat-array realisation of HDEC (R150), which the step does not use: the same symbol, bits consumed and faults. -/
def hdecFlat (s : State) : Res Symbol :=
  let m := s.maxlen.toNat
  let i := peek m s
  if i < s.fill.toNat then
    match storeGet s.hslot i with
    | some e =>
      let c := e.clen.toNat
      if bitsLeft s < c then .raised ((s.setBitPos (bitPos s + bitsLeft s)).raise .dataExhausted)
      else .ok ⟨c, i >>> (m - c), e.payload⟩ (s.setBitPos (bitPos s + c))
    | none => .raised (s.raise .codeUnassigned)
  else
    let c := leastOpen m s.fill.toNat i (m - 1) 1
    if bitsLeft s < c then .raised ((s.setBitPos (bitPos s + bitsLeft s)).raise .dataExhausted)
    else .raised ((s.setBitPos (bitPos s + c)).raise .codeUnassigned)

end Sys2Proof.Machine
end

