-- ==== Sys2Proof/Machine/Curve.lean ====
section
/-! DEFINITION. The header parser, the curve store's loader, the interpolator, the tail trim and the mapper, unit CV
(42_curve.md). -/

namespace Sys2Proof.Machine

/-- MetaRead8(a) (R160). -/
def metaRead8 (a : Nat) (s : State) : Res Byte :=
  if s.metalen.toNat ≤ a then .raised (s.raise .metaExhausted)
  else .ok (memRead s.metaMem a) s

/-- MetaRead16(a) (R161): bytes `a`, then `a + 1`, in the order of P_HDR_BE (20_memory.md R68). -/
def metaRead16 (a : Nat) (s : State) : Res Word :=
  (metaRead8 a s).bind fun x s1 =>
    (metaRead8 (a + 1) s1).bind fun y s2 =>
      .ok (if s2.cfg.hdrBE then BitVec.ofNat 16 (256 * x.toNat + y.toNat)
        else BitVec.ofNat 16 (256 * y.toNat + x.toNat)) s2

/-- P_HDRCLASS(v0, v1) (R164): a pair no class claims is UNKNOWN. -/
def hdrClass (c : Config) (v0 v1 : Byte) : HdrClass :=
  (storeGet c.hdrClasses (256 * v0.toNat + v1.toNat)).getD .unknown

/-- CMAP(pred) (R172). -/
def cmap (pred : Word) (s : State) : Res Word := curveRead (curveIndex pred) s

/-- One index of INTERP (R170). -/
def interpAt (step i : Nat) (s : State) : Res Unit :=
  let rem := i % step
  let base := i - rem
  (curveRead base s).bind fun a s1 =>
    if rem = 0 then .ok () (curveWrite i a s1)
    else
      (curveRead (base + step) s1).bind fun b s2 =>
        .ok () (curveWrite i (BitVec.ofNat 16 ((a.toNat * (step - rem) + b.toNat * rem) / step)) s2)

/-- Indices `i` to `i + n - 1` of INTERP, ascending. -/
def interpFrom (step : Nat) : Nat → Nat → State → Res Unit
  | 0, _, s => .ok () s
  | n + 1, i, s => (interpAt step i s).bind fun _ s' => interpFrom step n (i + 1) s'

/-- INTERP(M, n) (R170). -/
def interp (m n : Nat) (s : State) : Res Unit :=
  (interpFrom (m / (n - 1)) m 0 s).bind fun _ s' => .ok () { s' with maxReg := BitVec.ofNat 16 m }

/-- The loop of CTRIM (R173); MAX falls with each turn, so MAX turns are enough. -/
def ctrimFrom : Nat → State → Res Unit
  | 0, s => .ok () s
  | n + 1, s =>
    if s.maxReg.toNat < 2 then .ok () s
    else
      (curveRead (s.maxReg.toNat - 2) s).bind fun a s1 =>
        (curveRead (s1.maxReg.toNat - 1) s1).bind fun b s2 =>
          if a = b then ctrimFrom n { s2 with maxReg := s2.maxReg - 1 } else .ok () s2

/-- CTRIM (R173). -/
def ctrim (s : State) : Res Unit := ctrimFrom s.maxReg.toNat s

/-- Samples `k` to `k + n - 1` of the header, sample `k` to index `k * stride` (R168, R169; 30_encoding.md R96). -/
def loadSamples (stride : Nat) : Nat → Nat → State → Res Unit
  | 0, _, s => .ok () s
  | n + 1, k, s =>
    (metaRead16 (12 + 2 * k) s).bind fun v s' => loadSamples stride n (k + 1) (curveWrite (k * stride) v s')

/-- The count is invalid for interpolation over `2^BPS` entries (R168, 44_host_commands.md R237). -/
def badCount (s : State) : Bool :=
  decide (s.csize.toNat < 2) || decide (2 ^ s.bps.toNat / (s.csize.toNat - 1) = 0)

/-- BPS is a legal depth (44_host_commands.md R241). -/
def bpsLegal (s : State) : Bool := decide (s.bps = 12) || decide (s.bps = 14)

/-- LOADL2 (R168). -/
def loadL2 (s : State) : Res Unit :=
  if badCount s then .raised (s.raise .badCount)
  else
    let m := 2 ^ s.bps.toNat
    let n := s.csize.toNat
    (loadSamples (m / (n - 1)) n 0 (curveClear s)).bind fun _ s1 =>
      (interp m n s1).bind fun _ s2 =>
        (metaRead16 s2.cfg.splitOff s2).bind fun v s3 =>
          .ok () { s3 with split := v, lossless := false }

/-- LOADDIR (R169). -/
def loadDir (s : State) : Res Unit :=
  if s.csize.toNat = 0 ∨ s.csize.toNat > 0x4001 then .raised (s.raise .badCount)
  else
    (loadSamples 1 s.csize.toNat 0 (curveClear s)).bind fun _ s1 =>
      .ok () { s1 with maxReg := s1.csize, split := 0, lossless := true }

/-- The seeds and the count of the header (R165). -/
def hdrSeeds (s : State) : Res Unit :=
  (metaRead16 2 s).bind fun a s =>
    (metaRead16 4 { s with vseed0 := a }).bind fun b s =>
      (metaRead16 6 { s with vseed1 := b }).bind fun c s =>
        (metaRead16 8 { s with vseed2 := c }).bind fun d s =>
          (metaRead16 10 { s with vseed3 := d }).bind fun n s => .ok () { s with csize := n }

/-- The header of a class with a layout: seeds and count, the class's load, the trim (R165). -/
def hdrBody (load : State → Res Unit) (s : State) : Res Unit :=
  (hdrSeeds s).bind fun _ s1 => (load s1).bind fun _ s2 => ctrim s2

/-- HDR (R165), with the refusals of R166 and R167. -/
def hdrParse (s : State) : Res Unit :=
  if bpsLegal s then
    (metaRead8 0 s).bind fun v0 s =>
      (metaRead8 1 s).bind fun v1 s =>
        let s1 := { s with ver := v0 ++ v1 }
        match hdrClass s1.cfg v0 v1 with
        | .fwupdate => .raised (s1.raise .verFwupdate)
        | .unknown => .raised (s1.raise .verUnknown)
        | .lossy2 => hdrBody loadL2 s1
        | .direct => hdrBody loadDir s1
  else .raised (s.raise .badConfig)

/-- CINT (44_host_commands.md R237). -/
def curveInterpolate (s : State) : Res Unit :=
  if bpsLegal s then
    if badCount s then .raised (s.raise .badCount)
    else interp (2 ^ s.bps.toNat) s.csize.toNat s
  else .raised (s.raise .badConfig)

end Sys2Proof.Machine
end

