-- ==== Sys2Proof/Machine/Pixel.lean ====
section
/-! DEFINITION. The predictive decoder and the sequencer, units PD and SEQ (43_predictive.md). PIXSTEP (R205) is the
row-start check (R202), the FETCH of the record at BP (R191, R192: HDEC and the raw bits, which move BP) and its EXECUTION
(R193 to R204). The meanings of the three classes of record are the execution: what a record does once it is fetched. -/

namespace Sys2Proof.Machine

/-- PREDUPD (R196, R197): the lane plus `diff` modulo 2^16; answers the new value. -/
def predUpd (diff : Int) (s : State) : Word × State :=
  let c := s.col.getLsbD 0
  if s.col.toNat < 2 then
    let r := s.row.getLsbD 0
    let p := s.vpred r c + BitVec.ofInt 16 diff
    (p, (s.setVpred r c p).setHpred c p)
  else
    let p := s.hpred c + BitVec.ofInt 16 diff
    (p, s.setHpred c p)

/-- EMIT(v) (R200). -/
def emit (v : Word) (s : State) : State :=
  if inWindow s then rasterWrite s.row (s.col - s.lmargin) v s else s

/-- ADVANCE (R204). -/
def advance (s : State) : State :=
  if s.col.toNat + 1 < s.raww.toNat then { s with col := s.col + 1 }
  else
    { s with
      col := 0
      row := s.row + 1
      run := if s.row + 1 = s.height then .done else s.run }

/-- The execution of a fetched record with payload fields `len`, `shl` and raw field `raw`: R193 to R200 and R204, in the
order of R201. -/
def pixelRecord (len shl raw : Nat) (s : State) : Res Unit :=
  let u := predUpd (residual len shl raw) s
  let pred := u.1
  let s1 := u.2
  if outOfBounds s1 pred then .raised (s1.raise .bounds)
  else (cmap pred s1).bind fun v s2 => .ok () (advance (emit v s2))

/-- The fetch of the record at BP: HDEC, then `len - shl` raw bits (R191, R192). -/
def fetchRecord (s : State) : Res Record :=
  (hdec s).bind fun sym s1 =>
    (rdbits (payloadRawBits sym.payload) s1).bind fun raw s2 =>
      .ok ⟨sym.clen, sym.code, sym.payload, raw⟩ s2

/-- PIXSTEP after the row-start check: fetch, then execution. -/
def pixBody (s : State) : Res Unit :=
  (fetchRecord s).bind fun r s1 => pixelRecord (payloadLen r.payload) (payloadShl r.payload) r.raw s1

/-- SPLITTRANS (R203). -/
def splitTrans (s : State) : Res Unit :=
  let s1 := brreset s
  (hbuild (s1.tsel.toNat + 1) s1).bind fun _ s2 =>
    .ok () { s2 with maxReg := s2.maxReg + 32, minReg := 16, mode := .split }

/-- The row-start check (R202) with the transition it may cause. The model stops where the after-split table would have an
index HROM has not (log entry 5). -/
def rowStart (s : State) : Except Fault (Res Unit) :=
  if splitDue s then
    if s.tsel.toNat + 1 ≤ 5 then .ok (splitTrans s)
    else .error (.noSuchTable (s.tsel.toNat + 1))
  else .ok (.ok () s)

/-- PIXSTEP (R205). -/
def pixStep (s : State) : Except Fault State :=
  match rowStart s with
  | .error f => .error f
  | .ok r => .ok (r.bind fun _ s1 => pixBody s1).state

/-- The run loop (R206): `while RUN == ACTIVE: PIXSTEP`, at most `n` turns. -/
def runLoop : Nat → State → Except Fault State
  | 0, s => .ok s
  | n + 1, s =>
    if s.run = .active then
      match pixStep s with
      | .ok s' => runLoop n s'
      | .error f => .error f
    else .ok s

/-- Turns of the run loop that no run exceeds: a pixel step faults, stops or advances, and at most 65536 rows of at most
65535 columns pass before ROW meets HEIGHT (70_reset_and_hazards.md R313; log entry 9). -/
def runFuel : Nat := 2 ^ 32

/-- The outcome of pixel steps: a stop of the model is a fault, all else a next state. -/
def pixOutcome (r : Except Fault State) : Host.Outcome State Fault Refusal :=
  match r with
  | .ok s => .next s
  | .error f => .fault f

/-- A record is executed while RUN = ACTIVE only (R205, 44_host_commands.md R240). -/
def execRecord (len shl raw : Nat) (s : State) : Host.Outcome State Fault Refusal :=
  gate allowActive s (.next (pixelRecord len shl raw s).state)

/-- PX.ZERO (R205, R195): residual 0. -/
def execPxZero (s : State) : Host.Outcome State Fault Refusal :=
  execRecord 0 0 0 s

/-- PX.PLAIN (R205, R192 to R194 with shl = 0). -/
def execPxPlain (len raw : Nat) (s : State) : Host.Outcome State Fault Refusal :=
  execRecord len 0 raw s

/-- PX.SCALED (R205, R192 to R194 with shl >= 1). -/
def execPxScaled (len shl raw : Nat) (s : State) : Host.Outcome State Fault Refusal :=
  execRecord len shl raw s

end Sys2Proof.Machine
end

