-- ==== Sys2Proof/Machine/Commands.lean ====
section
/-! DEFINITION. The twelve host commands (44_host_commands.md R234 to R247), each with the gate of R240. A fault the spec
describes is a next state, the one fault entry leaves (60_exceptions.md R270). -/

namespace Sys2Proof.Machine

/-- NOP (R234). -/
def execNop (s : State) : Host.Outcome State Fault Refusal :=
  gate allowAny s (.next s)

/-- RESET (R235): allowed in every state, FAULT among them. -/
def execReset (s : State) : Host.Outcome State Fault Refusal :=
  .next (resetAll s)

/-- HDR (R236). -/
def execHdr (s : State) : Host.Outcome State Fault Refusal :=
  gate allowIdle s (.next (hdrParse s).state)

/-- CINT (R237). -/
def execCint (s : State) : Host.Outcome State Fault Refusal :=
  gate allowIdle s (.next (curveInterpolate s).state)

/-- CTRIM (R238). -/
def execCtrim (s : State) : Host.Outcome State Fault Refusal :=
  gate allowIdle s (.next (ctrim s).state)

/-- HBLD t (R239). A word with t above 5 is reserved and refused with BAD_CMD before the gate (30_encoding.md R104). -/
def execHbld (t : Byte) (s : State) : Host.Outcome State Fault Refusal :=
  if s.run = .fault then .next s
  else if t.toNat > 5 then .next (s.raise .badCmd)
  else gate allowIdle s (.next (hbuild t.toNat s).state)

/-- START after its checks (R241): the build, the lanes, the bounds, the position, RUN. -/
def startDecode (s : State) : Res Unit :=
  let t := 3 * (if s.bps = 14 then 1 else 0) + 2 * s.lossless.toNat
  (hbuild t s).bind fun _ s1 =>
    .ok ()
      { s1 with
        vpred00 := s1.vseed0, vpred01 := s1.vseed1, vpred10 := s1.vseed2, vpred11 := s1.vseed3,
        minReg := 0, mode := .normal, row := 0, col := 0, bpByte := 0, bpBit := 0,
        run := if s1.height = 0 ∨ s1.raww = 0 then .done else .active }

/-- START's three refusals (R241). -/
def startRefused (s : State) : Bool :=
  !bpsLegal s || (s.lossless && decide (s.split ≠ 0)) || decide (s.maxReg.toNat > 0x4001)

/-- START (R241). -/
def execStart (s : State) : Host.Outcome State Fault Refusal :=
  gate allowIdle s (.next (if startRefused s then s.raise .badConfig else (startDecode s).state))

/-- STEP (R242): one pixel step. -/
def execStep (s : State) : Host.Outcome State Fault Refusal :=
  gate allowActive s (pixOutcome (pixStep s))

/-- RUN (R243): pixel steps until RUN is not ACTIVE. -/
def execRun (s : State) : Host.Outcome State Fault Refusal :=
  gate allowActive s (pixOutcome (runLoop runFuel s))

/-- BRST (R245). -/
def execBrst (s : State) : Host.Outcome State Fault Refusal :=
  gate allowIdleActive s (.next (brreset s))

/-- RDB n (R246). A word with n above 16 is reserved and refused with BAD_CMD before the gate (30_encoding.md R104). -/
def execRdb (n : Byte) (s : State) : Host.Outcome State Fault Refusal :=
  if s.run = .fault then .next s
  else if n.toNat > 16 then .next (s.raise .badCmd)
  else
    gate allowIdleActive s
      (.next ((rdbits n.toNat s).bind fun v s1 => .ok () { s1 with result := BitVec.ofNat 16 v }).state)

/-- HDEC (R247): NO_TABLE if TVALID is clear; else the payload, zero-extended, into RESULT. -/
def execHdec (s : State) : Host.Outcome State Fault Refusal :=
  gate allowIdleActive s
    (.next
      (if s.tvalid then
        ((hdec s).bind fun sym s1 => .ok () { s1 with result := sym.payload.setWidth 16 }).state
      else s.raise .noTable))

end Sys2Proof.Machine
end

