-- ==== Sys2Proof/Machine/PixelCodes.lean ====
section
/-! DEFINITION. The records of the six candidate tables (30_encoding.md R108), one meaning for each codeword row: the
execution of a record with the row's payload (R92: len in the low four bits, shl in the high four) and raw field. -/

namespace Sys2Proof.Machine

/-- T0.C00.PX05, 00rrrrr. -/
def execT0C00 (raw : BitVec 5) (s : State) : Host.Outcome State Fault Refusal :=
  execRecord 5 0 raw.toNat s

/-- T0.C01.PX04, 010rrrr. -/
def execT0C01 (raw : BitVec 4) (s : State) : Host.Outcome State Fault Refusal :=
  execRecord 4 0 raw.toNat s

/-- T0.C02.PX03, 011rrr. -/
def execT0C02 (raw : BitVec 3) (s : State) : Host.Outcome State Fault Refusal :=
  execRecord 3 0 raw.toNat s

/-- T0.C03.PX06, 100rrrrrr. -/
def execT0C03 (raw : BitVec 6) (s : State) : Host.Outcome State Fault Refusal :=
  execRecord 6 0 raw.toNat s

/-- T0.C04.PX02, 101rr. -/
def execT0C04 (raw : BitVec 2) (s : State) : Host.Outcome State Fault Refusal :=
  execRecord 2 0 raw.toNat s

/-- T0.C05.PX07, 110rrrrrrr. -/
def execT0C05 (raw : BitVec 7) (s : State) : Host.Outcome State Fault Refusal :=
  execRecord 7 0 raw.toNat s

/-- T0.C06.PX01, 1110r. -/
def execT0C06 (raw : BitVec 1) (s : State) : Host.Outcome State Fault Refusal :=
  execRecord 1 0 raw.toNat s

/-- T0.C07.PX00, 11110. -/
def execT0C07 (s : State) : Host.Outcome State Fault Refusal :=
  execRecord 0 0 0 s

/-- T0.C08.PX08, 111110rrrrrrrr. -/
def execT0C08 (raw : BitVec 8) (s : State) : Host.Outcome State Fault Refusal :=
  execRecord 8 0 raw.toNat s

/-- T0.C09.PX09, 1111110rrrrrrrrr. -/
def execT0C09 (raw : BitVec 9) (s : State) : Host.Outcome State Fault Refusal :=
  execRecord 9 0 raw.toNat s

/-- T0.C10.PX0B, 11111110rrrrrrrrrrr. -/
def execT0C10 (raw : BitVec 11) (s : State) : Host.Outcome State Fault Refusal :=
  execRecord 11 0 raw.toNat s

/-- T0.C11.PX0A, 111111110rrrrrrrrrr. -/
def execT0C11 (raw : BitVec 10) (s : State) : Host.Outcome State Fault Refusal :=
  execRecord 10 0 raw.toNat s

/-- T0.C12.PX0C, 1111111110rrrrrrrrrrrr. -/
def execT0C12 (raw : BitVec 12) (s : State) : Host.Outcome State Fault Refusal :=
  execRecord 12 0 raw.toNat s

/-- T0.C13.PX00, 1111111111. -/
def execT0C13 (s : State) : Host.Outcome State Fault Refusal :=
  execRecord 0 0 0 s

/-- T1.C00.PX39, 00rrrrrr. -/
def execT1C00 (raw : BitVec 6) (s : State) : Host.Outcome State Fault Refusal :=
  execRecord 9 3 raw.toNat s

/-- T1.C01.PX5A, 010rrrrr. -/
def execT1C01 (raw : BitVec 5) (s : State) : Host.Outcome State Fault Refusal :=
  execRecord 10 5 raw.toNat s

/-- T1.C02.PX38, 011rrrrr. -/
def execT1C02 (raw : BitVec 5) (s : State) : Host.Outcome State Fault Refusal :=
  execRecord 8 3 raw.toNat s

/-- T1.C03.PX27, 100rrrrr. -/
def execT1C03 (raw : BitVec 5) (s : State) : Host.Outcome State Fault Refusal :=
  execRecord 7 2 raw.toNat s

/-- T1.C04.PX16, 101rrrrr. -/
def execT1C04 (raw : BitVec 5) (s : State) : Host.Outcome State Fault Refusal :=
  execRecord 6 1 raw.toNat s

/-- T1.C05.PX05, 110rrrrr. -/
def execT1C05 (raw : BitVec 5) (s : State) : Host.Outcome State Fault Refusal :=
  execRecord 5 0 raw.toNat s

/-- T1.C06.PX04, 1110rrrr. -/
def execT1C06 (raw : BitVec 4) (s : State) : Host.Outcome State Fault Refusal :=
  execRecord 4 0 raw.toNat s

/-- T1.C07.PX03, 11110rrr. -/
def execT1C07 (raw : BitVec 3) (s : State) : Host.Outcome State Fault Refusal :=
  execRecord 3 0 raw.toNat s

/-- T1.C08.PX02, 111110rr. -/
def execT1C08 (raw : BitVec 2) (s : State) : Host.Outcome State Fault Refusal :=
  execRecord 2 0 raw.toNat s

/-- T1.C09.PX01, 1111110r. -/
def execT1C09 (raw : BitVec 1) (s : State) : Host.Outcome State Fault Refusal :=
  execRecord 1 0 raw.toNat s

/-- T1.C10.PX00, 11111110. -/
def execT1C10 (s : State) : Host.Outcome State Fault Refusal :=
  execRecord 0 0 0 s

/-- T1.C11.PX0B, 111111110rrrrrrrrrrr. -/
def execT1C11 (raw : BitVec 11) (s : State) : Host.Outcome State Fault Refusal :=
  execRecord 11 0 raw.toNat s

/-- T1.C12.PX0C, 1111111110rrrrrrrrrrrr. -/
def execT1C12 (raw : BitVec 12) (s : State) : Host.Outcome State Fault Refusal :=
  execRecord 12 0 raw.toNat s

/-- T1.C13.PX0C, 1111111111rrrrrrrrrrrr. -/
def execT1C13 (raw : BitVec 12) (s : State) : Host.Outcome State Fault Refusal :=
  execRecord 12 0 raw.toNat s

/-- T2.C00.PX05, 00rrrrr. -/
def execT2C00 (raw : BitVec 5) (s : State) : Host.Outcome State Fault Refusal :=
  execRecord 5 0 raw.toNat s

/-- T2.C01.PX04, 010rrrr. -/
def execT2C01 (raw : BitVec 4) (s : State) : Host.Outcome State Fault Refusal :=
  execRecord 4 0 raw.toNat s

/-- T2.C02.PX06, 011rrrrrr. -/
def execT2C02 (raw : BitVec 6) (s : State) : Host.Outcome State Fault Refusal :=
  execRecord 6 0 raw.toNat s

/-- T2.C03.PX03, 100rrr. -/
def execT2C03 (raw : BitVec 3) (s : State) : Host.Outcome State Fault Refusal :=
  execRecord 3 0 raw.toNat s

/-- T2.C04.PX07, 101rrrrrrr. -/
def execT2C04 (raw : BitVec 7) (s : State) : Host.Outcome State Fault Refusal :=
  execRecord 7 0 raw.toNat s

/-- T2.C05.PX02, 1100rr. -/
def execT2C05 (raw : BitVec 2) (s : State) : Host.Outcome State Fault Refusal :=
  execRecord 2 0 raw.toNat s

/-- T2.C06.PX08, 1101rrrrrrrr. -/
def execT2C06 (raw : BitVec 8) (s : State) : Host.Outcome State Fault Refusal :=
  execRecord 8 0 raw.toNat s

/-- T2.C07.PX01, 11100r. -/
def execT2C07 (raw : BitVec 1) (s : State) : Host.Outcome State Fault Refusal :=
  execRecord 1 0 raw.toNat s

/-- T2.C08.PX09, 11101rrrrrrrrr. -/
def execT2C08 (raw : BitVec 9) (s : State) : Host.Outcome State Fault Refusal :=
  execRecord 9 0 raw.toNat s

/-- T2.C09.PX00, 11110. -/
def execT2C09 (s : State) : Host.Outcome State Fault Refusal :=
  execRecord 0 0 0 s

/-- T2.C10.PX0A, 111110rrrrrrrrrr. -/
def execT2C10 (raw : BitVec 10) (s : State) : Host.Outcome State Fault Refusal :=
  execRecord 10 0 raw.toNat s

/-- T2.C11.PX0B, 1111110rrrrrrrrrrr. -/
def execT2C11 (raw : BitVec 11) (s : State) : Host.Outcome State Fault Refusal :=
  execRecord 11 0 raw.toNat s

/-- T2.C12.PX0C, 1111111rrrrrrrrrrrr. -/
def execT2C12 (raw : BitVec 12) (s : State) : Host.Outcome State Fault Refusal :=
  execRecord 12 0 raw.toNat s

/-- T3.C00.PX05, 00rrrrr. -/
def execT3C00 (raw : BitVec 5) (s : State) : Host.Outcome State Fault Refusal :=
  execRecord 5 0 raw.toNat s

/-- T3.C01.PX06, 010rrrrrr. -/
def execT3C01 (raw : BitVec 6) (s : State) : Host.Outcome State Fault Refusal :=
  execRecord 6 0 raw.toNat s

/-- T3.C02.PX04, 011rrrr. -/
def execT3C02 (raw : BitVec 4) (s : State) : Host.Outcome State Fault Refusal :=
  execRecord 4 0 raw.toNat s

/-- T3.C03.PX07, 100rrrrrrr. -/
def execT3C03 (raw : BitVec 7) (s : State) : Host.Outcome State Fault Refusal :=
  execRecord 7 0 raw.toNat s

/-- T3.C04.PX08, 101rrrrrrrr. -/
def execT3C04 (raw : BitVec 8) (s : State) : Host.Outcome State Fault Refusal :=
  execRecord 8 0 raw.toNat s

/-- T3.C05.PX03, 1100rrr. -/
def execT3C05 (raw : BitVec 3) (s : State) : Host.Outcome State Fault Refusal :=
  execRecord 3 0 raw.toNat s

/-- T3.C06.PX09, 1101rrrrrrrrr. -/
def execT3C06 (raw : BitVec 9) (s : State) : Host.Outcome State Fault Refusal :=
  execRecord 9 0 raw.toNat s

/-- T3.C07.PX02, 1110rr. -/
def execT3C07 (raw : BitVec 2) (s : State) : Host.Outcome State Fault Refusal :=
  execRecord 2 0 raw.toNat s

/-- T3.C08.PX01, 11110r. -/
def execT3C08 (raw : BitVec 1) (s : State) : Host.Outcome State Fault Refusal :=
  execRecord 1 0 raw.toNat s

/-- T3.C09.PX00, 111110. -/
def execT3C09 (s : State) : Host.Outcome State Fault Refusal :=
  execRecord 0 0 0 s

/-- T3.C10.PX0A, 1111110rrrrrrrrrr. -/
def execT3C10 (raw : BitVec 10) (s : State) : Host.Outcome State Fault Refusal :=
  execRecord 10 0 raw.toNat s

/-- T3.C11.PX0B, 11111110rrrrrrrrrrr. -/
def execT3C11 (raw : BitVec 11) (s : State) : Host.Outcome State Fault Refusal :=
  execRecord 11 0 raw.toNat s

/-- T3.C12.PX0C, 111111110rrrrrrrrrrrr. -/
def execT3C12 (raw : BitVec 12) (s : State) : Host.Outcome State Fault Refusal :=
  execRecord 12 0 raw.toNat s

/-- T3.C13.PX0D, 1111111110rrrrrrrrrrrrr. -/
def execT3C13 (raw : BitVec 13) (s : State) : Host.Outcome State Fault Refusal :=
  execRecord 13 0 raw.toNat s

/-- T3.C14.PX0E, 1111111111rrrrrrrrrrrrrr. -/
def execT3C14 (raw : BitVec 14) (s : State) : Host.Outcome State Fault Refusal :=
  execRecord 14 0 raw.toNat s

/-- T4.C00.PX08, 00rrrrrrrr. -/
def execT4C00 (raw : BitVec 8) (s : State) : Host.Outcome State Fault Refusal :=
  execRecord 8 0 raw.toNat s

/-- T4.C01.PX5C, 010rrrrrrr. -/
def execT4C01 (raw : BitVec 7) (s : State) : Host.Outcome State Fault Refusal :=
  execRecord 12 5 raw.toNat s

/-- T4.C02.PX4B, 011rrrrrrr. -/
def execT4C02 (raw : BitVec 7) (s : State) : Host.Outcome State Fault Refusal :=
  execRecord 11 4 raw.toNat s

/-- T4.C03.PX3A, 100rrrrrrr. -/
def execT4C03 (raw : BitVec 7) (s : State) : Host.Outcome State Fault Refusal :=
  execRecord 10 3 raw.toNat s

/-- T4.C04.PX29, 101rrrrrrr. -/
def execT4C04 (raw : BitVec 7) (s : State) : Host.Outcome State Fault Refusal :=
  execRecord 9 2 raw.toNat s

/-- T4.C05.PX07, 110rrrrrrr. -/
def execT4C05 (raw : BitVec 7) (s : State) : Host.Outcome State Fault Refusal :=
  execRecord 7 0 raw.toNat s

/-- T4.C06.PX06, 1110rrrrrr. -/
def execT4C06 (raw : BitVec 6) (s : State) : Host.Outcome State Fault Refusal :=
  execRecord 6 0 raw.toNat s

/-- T4.C07.PX05, 11110rrrrr. -/
def execT4C07 (raw : BitVec 5) (s : State) : Host.Outcome State Fault Refusal :=
  execRecord 5 0 raw.toNat s

/-- T4.C08.PX04, 111110rrrr. -/
def execT4C08 (raw : BitVec 4) (s : State) : Host.Outcome State Fault Refusal :=
  execRecord 4 0 raw.toNat s

/-- T4.C09.PX03, 1111110rrr. -/
def execT4C09 (raw : BitVec 3) (s : State) : Host.Outcome State Fault Refusal :=
  execRecord 3 0 raw.toNat s

/-- T4.C10.PX02, 11111110rr. -/
def execT4C10 (raw : BitVec 2) (s : State) : Host.Outcome State Fault Refusal :=
  execRecord 2 0 raw.toNat s

/-- T4.C11.PX01, 111111110r. -/
def execT4C11 (raw : BitVec 1) (s : State) : Host.Outcome State Fault Refusal :=
  execRecord 1 0 raw.toNat s

/-- T4.C12.PX00, 1111111110. -/
def execT4C12 (s : State) : Host.Outcome State Fault Refusal :=
  execRecord 0 0 0 s

/-- T4.C13.PX0D, 11111111110rrrrrrrrrrrrr. -/
def execT4C13 (raw : BitVec 13) (s : State) : Host.Outcome State Fault Refusal :=
  execRecord 13 0 raw.toNat s

/-- T4.C14.PX0E, 11111111111rrrrrrrrrrrrrr. -/
def execT4C14 (raw : BitVec 14) (s : State) : Host.Outcome State Fault Refusal :=
  execRecord 14 0 raw.toNat s

/-- T5.C00.PX07, 00rrrrrrr. -/
def execT5C00 (raw : BitVec 7) (s : State) : Host.Outcome State Fault Refusal :=
  execRecord 7 0 raw.toNat s

/-- T5.C01.PX06, 010rrrrrr. -/
def execT5C01 (raw : BitVec 6) (s : State) : Host.Outcome State Fault Refusal :=
  execRecord 6 0 raw.toNat s

/-- T5.C02.PX08, 011rrrrrrrr. -/
def execT5C02 (raw : BitVec 8) (s : State) : Host.Outcome State Fault Refusal :=
  execRecord 8 0 raw.toNat s

/-- T5.C03.PX05, 100rrrrr. -/
def execT5C03 (raw : BitVec 5) (s : State) : Host.Outcome State Fault Refusal :=
  execRecord 5 0 raw.toNat s

/-- T5.C04.PX09, 101rrrrrrrrr. -/
def execT5C04 (raw : BitVec 9) (s : State) : Host.Outcome State Fault Refusal :=
  execRecord 9 0 raw.toNat s

/-- T5.C05.PX04, 1100rrrr. -/
def execT5C05 (raw : BitVec 4) (s : State) : Host.Outcome State Fault Refusal :=
  execRecord 4 0 raw.toNat s

/-- T5.C06.PX0A, 1101rrrrrrrrrr. -/
def execT5C06 (raw : BitVec 10) (s : State) : Host.Outcome State Fault Refusal :=
  execRecord 10 0 raw.toNat s

/-- T5.C07.PX03, 11100rrr. -/
def execT5C07 (raw : BitVec 3) (s : State) : Host.Outcome State Fault Refusal :=
  execRecord 3 0 raw.toNat s

/-- T5.C08.PX0B, 11101rrrrrrrrrrr. -/
def execT5C08 (raw : BitVec 11) (s : State) : Host.Outcome State Fault Refusal :=
  execRecord 11 0 raw.toNat s

/-- T5.C09.PX0C, 111100rrrrrrrrrrrr. -/
def execT5C09 (raw : BitVec 12) (s : State) : Host.Outcome State Fault Refusal :=
  execRecord 12 0 raw.toNat s

/-- T5.C10.PX02, 111101rr. -/
def execT5C10 (raw : BitVec 2) (s : State) : Host.Outcome State Fault Refusal :=
  execRecord 2 0 raw.toNat s

/-- T5.C11.PX00, 111110. -/
def execT5C11 (s : State) : Host.Outcome State Fault Refusal :=
  execRecord 0 0 0 s

/-- T5.C12.PX01, 1111110r. -/
def execT5C12 (raw : BitVec 1) (s : State) : Host.Outcome State Fault Refusal :=
  execRecord 1 0 raw.toNat s

/-- T5.C13.PX0D, 11111110rrrrrrrrrrrrr. -/
def execT5C13 (raw : BitVec 13) (s : State) : Host.Outcome State Fault Refusal :=
  execRecord 13 0 raw.toNat s

/-- T5.C14.PX0E, 11111111rrrrrrrrrrrrrr. -/
def execT5C14 (raw : BitVec 14) (s : State) : Host.Outcome State Fault Refusal :=
  execRecord 14 0 raw.toNat s

end Sys2Proof.Machine
end

