-- ==== Sys2Proof/Machine/Dispatch.lean ====
section
/-! DEFINITION. One arm for each instruction. -/

namespace Sys2Proof.Machine

def exec (i : Instr) (s : State) : Host.Outcome State Fault Refusal :=
  match i with
  | .nop => Sys2Proof.Machine.execNop s
  | .reset => Sys2Proof.Machine.execReset s
  | .hdr => Sys2Proof.Machine.execHdr s
  | .cint => Sys2Proof.Machine.execCint s
  | .ctrim => Sys2Proof.Machine.execCtrim s
  | .hbld t => Sys2Proof.Machine.execHbld t s
  | .start => Sys2Proof.Machine.execStart s
  | .step => Sys2Proof.Machine.execStep s
  | .run => Sys2Proof.Machine.execRun s
  | .brst => Sys2Proof.Machine.execBrst s
  | .rdb n => Sys2Proof.Machine.execRdb n s
  | .hdec => Sys2Proof.Machine.execHdec s
  | .pxZero => Sys2Proof.Machine.execPxZero s
  | .pxPlain len raw => Sys2Proof.Machine.execPxPlain len raw s
  | .pxScaled len shl raw => Sys2Proof.Machine.execPxScaled len shl raw s
  | .t0c00 raw => Sys2Proof.Machine.execT0C00 raw s
  | .t0c01 raw => Sys2Proof.Machine.execT0C01 raw s
  | .t0c02 raw => Sys2Proof.Machine.execT0C02 raw s
  | .t0c03 raw => Sys2Proof.Machine.execT0C03 raw s
  | .t0c04 raw => Sys2Proof.Machine.execT0C04 raw s
  | .t0c05 raw => Sys2Proof.Machine.execT0C05 raw s
  | .t0c06 raw => Sys2Proof.Machine.execT0C06 raw s
  | .t0c07 => Sys2Proof.Machine.execT0C07 s
  | .t0c08 raw => Sys2Proof.Machine.execT0C08 raw s
  | .t0c09 raw => Sys2Proof.Machine.execT0C09 raw s
  | .t0c10 raw => Sys2Proof.Machine.execT0C10 raw s
  | .t0c11 raw => Sys2Proof.Machine.execT0C11 raw s
  | .t0c12 raw => Sys2Proof.Machine.execT0C12 raw s
  | .t0c13 => Sys2Proof.Machine.execT0C13 s
  | .t1c00 raw => Sys2Proof.Machine.execT1C00 raw s
  | .t1c01 raw => Sys2Proof.Machine.execT1C01 raw s
  | .t1c02 raw => Sys2Proof.Machine.execT1C02 raw s
  | .t1c03 raw => Sys2Proof.Machine.execT1C03 raw s
  | .t1c04 raw => Sys2Proof.Machine.execT1C04 raw s
  | .t1c05 raw => Sys2Proof.Machine.execT1C05 raw s
  | .t1c06 raw => Sys2Proof.Machine.execT1C06 raw s
  | .t1c07 raw => Sys2Proof.Machine.execT1C07 raw s
  | .t1c08 raw => Sys2Proof.Machine.execT1C08 raw s
  | .t1c09 raw => Sys2Proof.Machine.execT1C09 raw s
  | .t1c10 => Sys2Proof.Machine.execT1C10 s
  | .t1c11 raw => Sys2Proof.Machine.execT1C11 raw s
  | .t1c12 raw => Sys2Proof.Machine.execT1C12 raw s
  | .t1c13 raw => Sys2Proof.Machine.execT1C13 raw s
  | .t2c00 raw => Sys2Proof.Machine.execT2C00 raw s
  | .t2c01 raw => Sys2Proof.Machine.execT2C01 raw s
  | .t2c02 raw => Sys2Proof.Machine.execT2C02 raw s
  | .t2c03 raw => Sys2Proof.Machine.execT2C03 raw s
  | .t2c04 raw => Sys2Proof.Machine.execT2C04 raw s
  | .t2c05 raw => Sys2Proof.Machine.execT2C05 raw s
  | .t2c06 raw => Sys2Proof.Machine.execT2C06 raw s
  | .t2c07 raw => Sys2Proof.Machine.execT2C07 raw s
  | .t2c08 raw => Sys2Proof.Machine.execT2C08 raw s
  | .t2c09 => Sys2Proof.Machine.execT2C09 s
  | .t2c10 raw => Sys2Proof.Machine.execT2C10 raw s
  | .t2c11 raw => Sys2Proof.Machine.execT2C11 raw s
  | .t2c12 raw => Sys2Proof.Machine.execT2C12 raw s
  | .t3c00 raw => Sys2Proof.Machine.execT3C00 raw s
  | .t3c01 raw => Sys2Proof.Machine.execT3C01 raw s
  | .t3c02 raw => Sys2Proof.Machine.execT3C02 raw s
  | .t3c03 raw => Sys2Proof.Machine.execT3C03 raw s
  | .t3c04 raw => Sys2Proof.Machine.execT3C04 raw s
  | .t3c05 raw => Sys2Proof.Machine.execT3C05 raw s
  | .t3c06 raw => Sys2Proof.Machine.execT3C06 raw s
  | .t3c07 raw => Sys2Proof.Machine.execT3C07 raw s
  | .t3c08 raw => Sys2Proof.Machine.execT3C08 raw s
  | .t3c09 => Sys2Proof.Machine.execT3C09 s
  | .t3c10 raw => Sys2Proof.Machine.execT3C10 raw s
  | .t3c11 raw => Sys2Proof.Machine.execT3C11 raw s
  | .t3c12 raw => Sys2Proof.Machine.execT3C12 raw s
  | .t3c13 raw => Sys2Proof.Machine.execT3C13 raw s
  | .t3c14 raw => Sys2Proof.Machine.execT3C14 raw s
  | .t4c00 raw => Sys2Proof.Machine.execT4C00 raw s
  | .t4c01 raw => Sys2Proof.Machine.execT4C01 raw s
  | .t4c02 raw => Sys2Proof.Machine.execT4C02 raw s
  | .t4c03 raw => Sys2Proof.Machine.execT4C03 raw s
  | .t4c04 raw => Sys2Proof.Machine.execT4C04 raw s
  | .t4c05 raw => Sys2Proof.Machine.execT4C05 raw s
  | .t4c06 raw => Sys2Proof.Machine.execT4C06 raw s
  | .t4c07 raw => Sys2Proof.Machine.execT4C07 raw s
  | .t4c08 raw => Sys2Proof.Machine.execT4C08 raw s
  | .t4c09 raw => Sys2Proof.Machine.execT4C09 raw s
  | .t4c10 raw => Sys2Proof.Machine.execT4C10 raw s
  | .t4c11 raw => Sys2Proof.Machine.execT4C11 raw s
  | .t4c12 => Sys2Proof.Machine.execT4C12 s
  | .t4c13 raw => Sys2Proof.Machine.execT4C13 raw s
  | .t4c14 raw => Sys2Proof.Machine.execT4C14 raw s
  | .t5c00 raw => Sys2Proof.Machine.execT5C00 raw s
  | .t5c01 raw => Sys2Proof.Machine.execT5C01 raw s
  | .t5c02 raw => Sys2Proof.Machine.execT5C02 raw s
  | .t5c03 raw => Sys2Proof.Machine.execT5C03 raw s
  | .t5c04 raw => Sys2Proof.Machine.execT5C04 raw s
  | .t5c05 raw => Sys2Proof.Machine.execT5C05 raw s
  | .t5c06 raw => Sys2Proof.Machine.execT5C06 raw s
  | .t5c07 raw => Sys2Proof.Machine.execT5C07 raw s
  | .t5c08 raw => Sys2Proof.Machine.execT5C08 raw s
  | .t5c09 raw => Sys2Proof.Machine.execT5C09 raw s
  | .t5c10 raw => Sys2Proof.Machine.execT5C10 raw s
  | .t5c11 => Sys2Proof.Machine.execT5C11 s
  | .t5c12 raw => Sys2Proof.Machine.execT5C12 raw s
  | .t5c13 raw => Sys2Proof.Machine.execT5C13 raw s
  | .t5c14 raw => Sys2Proof.Machine.execT5C14 raw s

end Sys2Proof.Machine
end

