-- ==== Sys2Proof/Machine/Bus.lean ====
section
/-! DEFINITION. The host's side of the register bus (44_host_commands.md R230 to R233; the map is 10_state.md R30), serving
one host access, and how an instruction or a whole program is placed where the machine fetches it. -/

namespace Sys2Proof.Machine

/-- COMMAND(w) (R233): decode, then the command with its gate; a reserved word is refused with BAD_CMD. -/
def command (w : Word) (s : State) : Host.Outcome State Fault Refusal :=
  match decodeCommand w with
  | .ok i => exec i s
  | .error _ => .next (s.raise .badCmd)

/-- The addresses of the RW registers (R30, R230). -/
def writable : List Nat :=
  [0x06, 0x07, 0x08, 0x09, 0x0A, 0x0B, 0x0C, 0x0D, 0x0E, 0x10, 0x11, 0x12, 0x13, 0x15,
    0x23, 0x24, 0x25, 0x26, 0x28, 0x29]

/-- The store of a RW register other than CDATA (R30, R230): FLAGS takes bit 0 only, a half of a 32-bit register leaves
the other half. -/
def regStore (addr : Nat) (v : Word) (s : State) : State :=
  match addr with
  | 0x06 => { s with bps := v }
  | 0x07 => { s with lossless := v.getLsbD 0 }
  | 0x08 => { s with height := v }
  | 0x09 => { s with raww := v }
  | 0x0A => { s with visw := v }
  | 0x0B => { s with lmargin := v }
  | 0x0C => { s with split := v }
  | 0x0D => { s with csize := v }
  | 0x0E => { s with ver := v }
  | 0x10 => { s with vseed0 := v }
  | 0x11 => { s with vseed1 := v }
  | 0x12 => { s with vseed2 := v }
  | 0x13 => { s with vseed3 := v }
  | 0x15 => { s with maxReg := v }
  | 0x23 => { s with srclen := s.srclen.extractLsb' 16 16 ++ v }
  | 0x24 => { s with srclen := v ++ s.srclen.extractLsb' 0 16 }
  | 0x25 => { s with metalen := s.metalen.extractLsb' 16 16 ++ v }
  | 0x26 => { s with metalen := v ++ s.metalen.extractLsb' 0 16 }
  | 0x28 => { s with caddr := v }
  | _ => s

/-- HostWrite to an address other than CMD, in a state other than FAULT (R230): the address check, then the state, then
CADDR (60_exceptions.md R272). -/
def regWrite (addr : Nat) (v : Word) (s : State) : State :=
  if !writable.contains addr then s.raise .badAccess
  else if s.run ≠ .idle then s.raise .badState
  else if addr = 0x29 then
    if s.caddr.toNat > 16384 then s.raise .badAccess
    else { curveWrite s.caddr.toNat v s with caddr := s.caddr + 1 }
  else regStore addr v s

/-- HostWrite(addr, v) (R230): in FAULT every write but RESET is ignored. -/
def hostWrite (addr : Byte) (v : Word) (s : State) : Host.Outcome State Fault Refusal :=
  if s.run = .fault then
    if addr = 0 ∧ v = 0x0100 then exec .reset s else .next s
  else if addr = 0 then command v s
  else .next (regWrite addr.toNat v s)

/-- A register other than CDATA as read (R30): zero-extended; CMD and unmapped addresses read as 0 (R231). -/
def regRead (addr : Nat) (s : State) : Word :=
  match addr with
  | 0x01 => statusWord s
  | 0x02 => faultWord s
  | 0x03 => s.frow
  | 0x04 => s.fcol
  | 0x05 => s.result
  | 0x06 => s.bps
  | 0x07 => BitVec.ofNat 16 s.lossless.toNat
  | 0x08 => s.height
  | 0x09 => s.raww
  | 0x0A => s.visw
  | 0x0B => s.lmargin
  | 0x0C => s.split
  | 0x0D => s.csize
  | 0x0E => s.ver
  | 0x10 => s.vseed0
  | 0x11 => s.vseed1
  | 0x12 => s.vseed2
  | 0x13 => s.vseed3
  | 0x14 => s.minReg
  | 0x15 => s.maxReg
  | 0x16 => s.row
  | 0x17 => s.col
  | 0x18 => s.vpred00
  | 0x19 => s.vpred01
  | 0x1A => s.vpred10
  | 0x1B => s.vpred11
  | 0x1C => s.hpred0
  | 0x1D => s.hpred1
  | 0x1E => s.tsel.setWidth 16
  | 0x1F => s.maxlen.setWidth 16
  | 0x20 => s.bpByte.extractLsb' 0 16
  | 0x21 => s.bpByte.extractLsb' 16 16
  | 0x22 => s.bpBit.setWidth 16
  | 0x23 => s.srclen.extractLsb' 0 16
  | 0x24 => s.srclen.extractLsb' 16 16
  | 0x25 => s.metalen.extractLsb' 0 16
  | 0x26 => s.metalen.extractLsb' 16 16
  | 0x28 => s.caddr
  | _ => 0

/-- What CDATA shows (10_state.md R35): the entry at CADDR, if CADDR <= 16384 and the entry is written. -/
def cdataEntry (s : State) : Option Word :=
  if s.caddr.toNat ≤ 16384 then storeGet s.curve s.caddr.toNat else none

/-- HostRead(addr) (R231): no register, flag or memory of the block changes. Where CDATA has no entry to show, the value is
free, and the model's own count of such values moves on (R35). -/
def hostRead (addr : Nat) (s : State) : Word × State :=
  if addr = 0x29 then
    match cdataEntry s with
    | some v => (v, s)
    | none => (Config.freeRead s.draws, { s with draws := s.draws + 1 })
  else (regRead addr s, s)

/-- A host read as the host sees it: the value joins what its reads returned. -/
def serveRead (addr : Nat) (s : State) : State :=
  let r := hostRead addr s
  { r.2 with hostOut := r.2.hostOut ++ [r.1] }

/-- One host access (R232); with none pending the block waits and nothing changes (60_exceptions.md R285). -/
def serve (s : State) : Host.Outcome State Fault Refusal :=
  match s.hostIn with
  | [] => .next s
  | .write addr v :: rest => hostWrite addr v { s with hostIn := rest }
  | .read addr :: rest => .next (serveRead addr.toNat { s with hostIn := rest })
  | .hardReset :: rest => .next (resetAll { s with hostIn := rest })

/-! ### Placing what the outside world supplies -/

/-- A run as the outside world sets it up (00_scope.md R11, R12): the parameters, the bytes of DATA and META from index 0,
and the accesses the host will make. The register writes of the bring-up (70_reset_and_hazards.md R303) are among those. -/
def State.supply (s : State) (cfg : Config) (data metaBytes : List Byte) (accesses : List HostAccess) : State :=
  { s with
    cfg := cfg
    data := memWriteBytes [] 0 data
    metaMem := memWriteBytes [] 0 metaBytes
    hostIn := accesses }

/-- The bytes of a bit stream, first bit in bit 7 of byte 0, zero bits at the end (20_memory.md R66). -/
def bytesOfBits (bits : List Bool) : List Byte :=
  (List.range ((bits.length + 7) / 8)).map fun k =>
    BitVec.ofNat 8 (natOfBits ((List.range 8).map fun j => bits.getD (8 * k + j) false))

/-- The packed table with one code, of length 1, with the given payload. -/
def singleCodeTable (payload : Byte) : PackedTable :=
  ((Vector.replicate 32 (0 : Byte)).set 0 1).set 16 payload

/-- A pixel record as the next thing run: HROM and DATA hold the table and the record, the table is built, BP is at the
record, one pixel is to decode, and the host's next access is STEP. -/
def placeRecord (hrom : Vector PackedTable 6) (t : Nat) (bits : List Bool) (s : State) : State :=
  let bytes := bytesOfBits bits
  (hbuild t
    { s with
      cfg := { s.cfg with hrom := hrom }
      data := memWriteBytes [] 0 bytes
      srclen := BitVec.ofNat 32 bytes.length
      bpByte := 0
      bpBit := 0
      row := 0
      col := 0
      height := 1
      raww := 1
      run := .active
      hostIn := .write 0 0x0700 :: s.hostIn }).state

/-- An encoding as the next thing run: a command word as the host's next write to CMD, a record as `placeRecord` sets it. -/
def placeEncoded (e : Encoded) (s : State) : State :=
  match e with
  | .cmd w => { s with hostIn := .write 0 w :: s.hostIn }
  | .record payload raw => placeRecord (Vector.replicate 6 (singleCodeTable payload)) 0 (false :: raw) s
  | .stream t bits => placeRecord candidateHrom t bits s

/-- The table word `w` of `nbits` bits as the next thing run; a word that stands for no instruction is written to CMD as it
is. -/
def placeTableWord (nbits w : Nat) (s : State) : State :=
  match decodeTableWord nbits w with
  | some i => placeEncoded (encode i) s
  | none => placeEncoded (.cmd (BitVec.ofNat 16 w)) s

end Sys2Proof.Machine
end

