-- ==== Sys2Proof/Machine/Step.lean ====
section
/-! DEFINITION. One step of the machine: one host access (44_host_commands.md R232). -/

namespace Sys2Proof.Machine

/-- One step (R232). -/
def step (s : State) : Host.Outcome State Fault Refusal := serve s

/-- `s` with the instruction of a table word where the next step runs it. -/
def State.withFetchWord (s : State) (nbits w : Nat) : State := placeTableWord nbits w s

end Sys2Proof.Machine
end

