-- ==== Sys2Proof/Safety.lean ====
section
/-! DEFINITION. What counts as a good state, and the words the statements use: the invariant (43_predictive.md R209 a;
10_state.md R23 to R28, R33, R37, R38), what a packed table asks for and gives (41_huffman.md R142, R143), what the next
bits of DATA are, and the effect of one pixel record written field by field from its rules. -/

namespace Sys2Proof.Machine

/-! ### The invariant -/

/-- `RUN = FAULT` if and only if `KIND != 0`, and the kind is the one the cause refines (10_state.md R28, R262). -/
def faultRecordOk (s : State) : Bool :=
  decide (s.run = .fault ↔ s.kind ≠ .none) && decide (s.kind = s.cause.kind)

/-- The curve store is in canonical form and has indices up to 16384 only (R38). -/
def curveOk (s : State) : Bool :=
  storeRising s.curve && s.curve.all (fun e => decide (e.1 ≤ 16384))

/-- The slot store is in canonical form and has slots up to 65535 only (R37). -/
def slotsOk (s : State) : Bool :=
  storeRising s.hslot && s.hslot.all (fun e => decide (e.1 < 65536))

/-- A slot of a built table: a length from 1 to MAXLEN and a payload with shl <= len (R37, 41_huffman.md R142). -/
def slotLegal (maxlen : Nat) (e : Slot) : Bool :=
  decide (1 ≤ e.clen.toNat) && decide (e.clen.toNat ≤ maxlen) &&
    decide (payloadShl e.payload ≤ payloadLen e.payload)

/-- While TVALID is set, the table registers hold values a successful build leaves (R27, R33). -/
def tableOk (s : State) : Bool :=
  !s.tvalid ||
    (decide (s.tsel.toNat ≤ 5) && decide (1 ≤ s.maxlen.toNat) && decide (s.maxlen.toNat ≤ 16) &&
      decide (s.fill.toNat ≤ 2 ^ s.maxlen.toNat) &&
      s.hslot.all (fun e => decide (s.fill.toNat ≤ e.1) || slotLegal s.maxlen.toNat e.2))

/-- The index of the table in use, `3 * (BPS == 14) + 2 * LOSSLESS + afterSplit` (41_huffman.md R141). -/
def tableIndex (s : State) : Nat :=
  3 * (if s.bps = 14 then 1 else 0) + 2 * s.lossless.toNat + s.mode.code

/-- While RUN = ACTIVE (43_predictive.md R209 a, with what START's checks leave, R241). -/
def activeOk (s : State) : Bool :=
  !decide (s.run = .active) ||
    (s.tvalid && decide (s.row.toNat < s.height.toNat) && decide (s.col.toNat < s.raww.toNat) &&
      decide (bitPos s ≤ 8 * s.srclen.toNat) &&
      decide (s.minReg.toNat = 16 * s.mode.code) && decide (s.maxReg.toNat ≤ 0x4001 + 32 * s.mode.code) &&
      decide (s.tsel.toNat = tableIndex s) &&
      !(s.lossless && decide (s.split ≠ 0)) && !(decide (s.mode = .split) && decide (s.split = 0)))

/-- The invariant of the machine. -/
def inv (s : State) : Bool :=
  faultRecordOk s && curveOk s && slotsOk s && Memory.wf s.data && Memory.wf s.metaMem && tableOk s && activeOk s

/-! ### The next host access -/

/-- The next access is a reset: the hard reset input, or RESET written to CMD (70_reset_and_hazards.md R300). -/
def nextIsReset (s : State) : Bool :=
  match s.hostIn with
  | .hardReset :: _ => true
  | .write addr v :: _ => decide (addr = 0) && decide (v = 0x0100)
  | _ => false

/-- The next access is a read, or a write to a register other than CMD. -/
def nextIsRegisterAccess (s : State) : Bool :=
  match s.hostIn with
  | .read _ :: _ => true
  | .write addr _ :: _ => decide (addr ≠ 0)
  | _ => false

/-! ### Bits of DATA -/

/-- The `n` bits of DATA from bit position `p` on, the first one most significant (20_memory.md R66, R67). -/
def bitsAt (s : State) (p n : Nat) : Nat :=
  natOfBits ((List.range n).map fun i => dataBit s ((p + i) / 8) ((p + i) % 8))

/-! ### Packed tables -/

/-- The longest code of a packed table (41_huffman.md R142). -/
def tableMaxLen (table : PackedTable) : Nat := scanMaxLen table 16

/-- The lengths of the codes of a packed table, in code order. -/
def tableLengths (table : PackedTable) : List Nat := codeLengths table (tableMaxLen table)

/-- `start_k`, the first slot of the k-th code (30_encoding.md R94, 41_huffman.md R143). -/
def codeStart (table : PackedTable) (k : Nat) : Nat :=
  (((tableLengths table).take k).map fun l => 2 ^ (tableMaxLen table - l)).sum

/-- How many slots the table fills. -/
def tableFill (table : PackedTable) : Nat := codeStart table (tableLengths table).length

/-- The length of the k-th code. -/
def codeLength (table : PackedTable) (k : Nat) : Nat := (tableLengths table).getD k 0

/-- The k-th codeword, `start_k >> (MAXLEN - l)` (30_encoding.md R94). -/
def codeword (table : PackedTable) (k : Nat) : Nat :=
  codeStart table k >>> (tableMaxLen table - codeLength table k)

/-- The payload of the k-th code, `S[16 + k]` (30_encoding.md R90). -/
def codePayload (table : PackedTable) (k : Nat) : Byte := tableByte table (16 + k)

/-- The four checks of 41_huffman.md R142 pass. -/
abbrev Buildable (table : PackedTable) : Prop :=
  tableMaxLen table ≠ 0 ∧ sumCounts table 16 ≤ 16 ∧ tableFill table ≤ 2 ^ tableMaxLen table ∧
    ∀ k < (tableLengths table).length, payloadShl (codePayload table k) ≤ payloadLen (codePayload table k)

/-- The constraint of 41_huffman.md R147 on the parameter HROM: each of the six tables builds and is complete,
`FILL = 2^MAXLEN`. The spec takes it as a named hypothesis, not as a fact about any bytes. -/
abbrev HromComplete (hrom : Vector PackedTable 6) : Prop :=
  ∀ t : Fin 6, Buildable hrom[t] ∧ tableFill hrom[t] = 2 ^ tableMaxLen hrom[t]

/-- The k-th code is the first at which slot assignment fails, with its cause: a slot at or beyond `2^MAXLEN` would be
needed, or else its payload has shl > len (R142, checks 3 and 4 in the order of R144). -/
abbrev FailsAt (table : PackedTable) (k : Nat) (c : FaultCause) : Prop :=
  k < (tableLengths table).length ∧
  (∀ j < k, codeStart table (j + 1) ≤ 2 ^ tableMaxLen table ∧
    payloadShl (codePayload table j) ≤ payloadLen (codePayload table j)) ∧
  ((2 ^ tableMaxLen table < codeStart table (k + 1) ∧ c = .oversubscribed) ∨
    (codeStart table (k + 1) ≤ 2 ^ tableMaxLen table ∧
      payloadLen (codePayload table k) < payloadShl (codePayload table k) ∧ c = .badPayload))

/-- `slots` holds the first `n` codes of `table` at their places, and no other slot below `2^MAXLEN` (R143). -/
def SlotsBefore (table : PackedTable) (n : Nat) (slots : List (Nat × Slot)) : Prop :=
  (∀ k < n, ∀ q, codeStart table k ≤ q → q < codeStart table (k + 1) →
    storeGet slots q = some ⟨BitVec.ofNat 5 (codeLength table k), codePayload table k⟩) ∧
  ∀ q, codeStart table n ≤ q → q < 2 ^ tableMaxLen table → storeGet slots q = none

/-- A build of `table` from `s` fails with the cause `c` and leaves `maxlen` and `slots` (R142, R144): without any code, or
with more than 16, nothing but TVALID is written; else the codes before the one that fails stand in their slots. -/
def FailedBuild (table : PackedTable) (s : State) (c : FaultCause) (maxlen : BitVec 5) (slots : List (Nat × Slot)) :
    Prop :=
  (tableMaxLen table = 0 ∧ c = .maxlenZero ∧ maxlen = s.maxlen ∧ slots = s.hslot) ∨
  (tableMaxLen table ≠ 0 ∧ 16 < sumCounts table 16 ∧ c = .tooManySymbols ∧ maxlen = s.maxlen ∧ slots = s.hslot) ∨
  (tableMaxLen table ≠ 0 ∧ sumCounts table 16 ≤ 16 ∧ maxlen = BitVec.ofNat 5 (tableMaxLen table) ∧
    ∃ k, FailsAt table k c ∧ SlotsBefore table k slots ∧
      ∀ q, 2 ^ tableMaxLen table ≤ q → storeGet slots q = storeGet s.hslot q)

/-- `slots` holds the codes of `table` at their places, and no other slot below `2^MAXLEN` (R143). -/
def SlotsOf (table : PackedTable) (slots : List (Nat × Slot)) : Prop :=
  (∀ k < (tableLengths table).length, ∀ q, codeStart table k ≤ q → q < codeStart table (k + 1) →
    storeGet slots q = some ⟨BitVec.ofNat 5 (codeLength table k), codePayload table k⟩) ∧
  ∀ q, tableFill table ≤ q → q < 2 ^ tableMaxLen table → storeGet slots q = none

/-- `s` with a table built as HROM[t]'s: what a successful HBUILD(t) leaves, `slots` being the new slot store (R144). -/
def withTable (table : PackedTable) (t : Nat) (slots : List (Nat × Slot)) (s : State) : State :=
  { s with
    tvalid := true
    maxlen := BitVec.ofNat 5 (tableMaxLen table)
    fill := BitVec.ofNat 17 (tableFill table)
    tsel := BitVec.ofNat 3 t
    hslot := slots }

/-- The registers of `s` hold a build of `table`. -/
def HoldsTable (table : PackedTable) (s : State) : Prop :=
  Buildable table ∧ s.tvalid = true ∧ s.maxlen.toNat = tableMaxLen table ∧ s.fill.toNat = tableFill table ∧
    SlotsOf table s.hslot

/-- The bits at BP leave the codes of `table` with their l-th bit: the first slot under the prefix of `l` bits is at or
beyond FILL, and that of every shorter prefix is below it (41_huffman.md R145). -/
abbrev UnassignedAt (table : PackedTable) (s : State) (l : Nat) : Prop :=
  1 ≤ l ∧ l ≤ tableMaxLen table ∧ l ≤ bitsLeft s ∧
    tableFill table ≤ bitsAt s (bitPos s) l * 2 ^ (tableMaxLen table - l) ∧
    ∀ j < l, 1 ≤ j → bitsAt s (bitPos s) j * 2 ^ (tableMaxLen table - j) < tableFill table

/-- DATA ends inside a codeword of `table`: BP is not beyond its end, no codeword is whole in the bits left, and no prefix of
them has left the codes (40_bitreader.md R122, 41_huffman.md R145). -/
abbrev CodewordTruncated (table : PackedTable) (s : State) : Prop :=
  bitPos s ≤ 8 * s.srclen.toNat ∧
  (∀ k < (tableLengths table).length, codeLength table k ≤ bitsLeft s →
    bitsAt s (bitPos s) (codeLength table k) ≠ codeword table k) ∧
  ∀ j ≤ bitsLeft s, 1 ≤ j → bitsAt s (bitPos s) j * 2 ^ (tableMaxLen table - j) < tableFill table

/-! ### The curve -/

/-- What MetaRead16(a) returns where both bytes are there (42_curve.md R161, 20_memory.md R68). -/
def meta16 (s : State) (a : Nat) : Word :=
  let x := memRead s.metaMem a
  let y := memRead s.metaMem (a + 1)
  if s.cfg.hdrBE then BitVec.ofNat 16 (256 * x.toNat + y.toNat) else BitVec.ofNat 16 (256 * y.toNat + x.toNat)

/-- Trimming a curve of logical length `m` leaves the length `m'` (42_curve.md R173): below 2 nothing is done; else the
entries cut off all equal the last one kept, and of the last two kept the values differ, or one entry is left. -/
def Trimmed (curve : List (Nat × Word)) (m m' : Nat) : Prop :=
  m' ≤ m ∧ (m < 2 → m' = m) ∧ (2 ≤ m → 1 ≤ m') ∧
    (2 ≤ m' → storeGet curve (m' - 2) ≠ storeGet curve (m' - 1)) ∧
    ∀ j, m' ≤ j → j < m → storeGet curve j = storeGet curve (m' - 1)

/-- The value interpolation gives index `i` between the samples `a` at `i - i % step` and `b` one step on (R170), exact. -/
def interpolated (a b : Word) (step i : Nat) : Nat :=
  (a.toNat * (step - i % step) + b.toNat * (i % step)) / step

/-- Every index below `n` holds the interpolated value of its two samples (R170). -/
def CurveThrough (curve : List (Nat × Word)) (sample : Nat → Word) (step n : Nat) : Prop :=
  ∀ i < n, ∃ v, storeGet curve i = some v ∧
    v.toNat = interpolated (sample (i / step)) (sample (i / step + 1)) step i

/-- `s` with the header's fields read as far as METALEN reaches, from the version bytes to the count (42_curve.md R165,
30_encoding.md R96). -/
def headerFields (s : State) : State :=
  { s with
    ver := memRead s.metaMem 0 ++ memRead s.metaMem 1
    vseed0 := if 4 ≤ s.metalen.toNat then meta16 s 2 else s.vseed0
    vseed1 := if 6 ≤ s.metalen.toNat then meta16 s 4 else s.vseed1
    vseed2 := if 8 ≤ s.metalen.toNat then meta16 s 6 else s.vseed2
    vseed3 := if 10 ≤ s.metalen.toNat then meta16 s 8 else s.vseed3
    csize := if 12 ≤ s.metalen.toNat then meta16 s 10 else s.csize }

/-- The faults of HDR on a header of class LOSSY2 or DIRECT, in the order they arise, each with what was written before it
kept (42_curve.md R165, R168 to R170; 60_exceptions.md R271, R272): the version bytes cut off; the seeds or the count cut
off; a bad count; the samples cut off; for LOSSY2 samples that do not reach the end of the curve, and the split row cut
off. -/
def HdrFaults (s : State) : Prop :=
  let cls := hdrClass s.cfg (memRead s.metaMem 0) (memRead s.metaMem 1)
  let len := s.metalen.toNat
  let m := 2 ^ s.bps.toNat
  let n := (meta16 s 10).toNat
  let step := if cls = .lossy2 then m / (n - 1) else 1
  let badCount := if cls = .lossy2 then n < 2 ∨ m / (n - 1) = 0 else n = 0 ∨ 0x4001 < n
  let sample := fun k => meta16 s (12 + 2 * k)
  (len < 2 → exec .hdr s = .next (s.raise .metaExhausted)) ∧
  (cls = .lossy2 ∨ cls = .direct →
    (2 ≤ len → len < 12 → exec .hdr s = .next ((headerFields s).raise .metaExhausted)) ∧
    (12 ≤ len → badCount → exec .hdr s = .next ((headerFields s).raise .badCount)) ∧
    (12 ≤ len → ¬ badCount → len < 12 + 2 * n → ∃ curve,
      exec .hdr s = .next (({ headerFields s with curve := curve } : State).raise .metaExhausted) ∧
      (∀ k, 14 + 2 * k ≤ len → storeGet curve (k * step) = some (sample k)) ∧
      ∀ i, (∀ k, 14 + 2 * k ≤ len → i ≠ k * step) → storeGet curve i = none)) ∧
  (cls = .lossy2 → ¬ badCount → 12 + 2 * n ≤ len →
    ((n - 1) * step + 1 < m → ∃ curve,
      exec .hdr s = .next (({ headerFields s with curve := curve } : State).raise .curveUnwritten) ∧
      CurveThrough curve sample step ((n - 1) * step + 1) ∧
      ∀ i, (n - 1) * step + 1 ≤ i → storeGet curve i = none) ∧
    (m ≤ (n - 1) * step + 1 → len < s.cfg.splitOff + 2 → ∃ curve,
      exec .hdr s =
        .next (({ headerFields s with curve := curve, maxReg := BitVec.ofNat 16 m } : State).raise .metaExhausted) ∧
      CurveThrough curve sample step m ∧
      ∀ i, m ≤ i → storeGet curve i = if i = m ∧ (n - 1) * step = m then some (sample (n - 1)) else none))

/-! ### One pixel record -/

/-- The residual by the payload classes of 30_encoding.md R93. -/
def recordDiff (len shl raw : Nat) : Int :=
  if len = 0 then 0
  else if shl = 0 then
    if raw.testBit (len - 1) then raw else (raw : Int) - 2 ^ len + 1
  else
    let d := raw * 2 ^ shl + 2 ^ (shl - 1)
    if d.testBit (len - 1) then d else (d : Int) - 2 ^ len

/-- The lane that pixel (ROW, COL) is predicted from (43_predictive.md R196, R197). -/
def pixelLane (s : State) : Word :=
  if s.col.toNat < 2 then s.vpred (decide (s.row.toNat % 2 = 1)) (decide (s.col.toNat = 1))
  else s.hpred (decide (s.col.toNat % 2 = 1))

/-- The lane after the residual is added, modulo 2^16 (R196, R197). -/
def pixelPred (diff : Int) (s : State) : Word := BitVec.ofInt 16 ((pixelLane s).toNat + diff)

/-- The lanes after the pixel's lane became `p`: at columns 0 and 1 the vertical lane of the row's parity and the
horizontal lane of the column, from column 2 on the horizontal lane of the column's parity (R196, R197). -/
def pixelLanes (p : Word) (s : State) : State :=
  { s with
    vpred00 := if s.col.toNat = 0 ∧ s.row.toNat % 2 = 0 then p else s.vpred00
    vpred01 := if s.col.toNat = 1 ∧ s.row.toNat % 2 = 0 then p else s.vpred01
    vpred10 := if s.col.toNat = 0 ∧ s.row.toNat % 2 = 1 then p else s.vpred10
    vpred11 := if s.col.toNat = 1 ∧ s.row.toNat % 2 = 1 then p else s.vpred11
    hpred0 := if s.col.toNat % 2 = 0 then p else s.hpred0
    hpred1 := if s.col.toNat % 2 = 1 then p else s.hpred1 }

/-- The state after a pixel whose lane became `p` and whose output sample is `v`: the lanes; one raster event if the
column lies in the window (R200); the next position, and DONE after the last pixel (R204). -/
def pixelResult (p v : Word) (s : State) : State :=
  { pixelLanes p s with
    raster :=
      if s.lmargin.toNat ≤ s.col.toNat ∧ s.col.toNat - s.lmargin.toNat < s.visw.toNat then
        s.raster ++ [⟨s.row, s.col - s.lmargin, v⟩]
      else s.raster
    col := if s.col.toNat + 1 < s.raww.toNat then s.col + 1 else 0
    row := if s.col.toNat + 1 < s.raww.toNat then s.row else s.row + 1
    run :=
      if s.col.toNat + 1 < s.raww.toNat then s.run
      else if s.row + 1 = s.height then .done else s.run }

/-- The instruction `i` is a record with the given payload fields and raw field, and completes: while RUN = ACTIVE, with
the new lane value inside the bounds (R198) and the curve written at its index (R172), it has exactly the effect of
`pixelResult`. -/
def RecordCompletes (i : Instr) (len shl raw : Nat) : Prop :=
  ∀ (s : State) (v : Word), s.run = .active →
    (pixelPred (recordDiff len shl raw) s + s.minReg).toNat < s.maxReg.toNat →
    storeGet s.curve (min (pixelPred (recordDiff len shl raw) s).toInt.toNat 0x3fff) = some v →
    exec i s = .next (pixelResult (pixelPred (recordDiff len shl raw) s) v s)

/-- `a` comes before `b` in row-major order (20_memory.md R76). -/
def RasterEvent.before (a b : RasterEvent) : Prop :=
  a.row.toNat < b.row.toNat ∨ (a.row = b.row ∧ a.vcol.toNat < b.vcol.toNat)

end Sys2Proof.Machine
end

