-- ==== Sys2Proof/Certificates/Slice0/Obligations.lean ====
section
/-! DEFINITION. The statements for the provers. Each docstring names the rules it formalises; where it rests on a choice of
the model, it names the log entry. -/

open Sys2Proof Sys2Proof.Machine

/-! ### Reset and fault entry -/

/-- RESET and the hard reset input give every piece of state its reset value, in every state of RUN, and touch neither
HROM and the parameters, nor DATA, META, the raster (10_state.md R43, 44_host_commands.md R235, 70_reset_and_hazards.md
R301). That the model's own fields `hostIn`, `hostOut`, `draws` stay is the model's choice (log entries 3 and 4). -/
def Obligations.ResetValues : Prop :=
  ∀ s : State,
    let t : State :=
      { s with
        vpred00 := 0, vpred01 := 0, vpred10 := 0, vpred11 := 0, hpred0 := 0, hpred1 := 0
        bpByte := 0, bpBit := 0, row := 0, col := 0, mode := .normal, run := .idle, tvalid := false
        kind := .none, cause := .none, frow := 0, fcol := 0, result := 0
        bps := 0, lossless := false, height := 0, raww := 0, visw := 0, lmargin := 0, split := 0, csize := 0
        ver := 0, vseed0 := 0, vseed1 := 0, vseed2 := 0, vseed3 := 0, minReg := 0, maxReg := 0
        tsel := 0, maxlen := 0, fill := 0, srclen := 0, metalen := 0, caddr := 0, hslot := [], curve := [] }
    exec .reset s = .next t ∧
      ∀ rest, s.hostIn = .hardReset :: rest → step s = .next { t with hostIn := rest }

/-- The state after reset meets the invariant (43_predictive.md R209 a; 10_state.md R28, R37, R38). That DATA and META are
empty, and so in canonical form, is the model's choice (log entry 2). -/
def Obligations.ResetMeetsInvariant : Prop :=
  inv State.reset = true

/-- Fault entry writes the kind, the cause, the position and RUN, and nothing else (60_exceptions.md R270). -/
def Obligations.FaultEntryWritesTheRecordOnly : Prop :=
  ∀ (s : State) (c : FaultCause),
    s.raise c = { s with kind := c.kind, cause := c, frow := s.row, fcol := s.col, run := .fault }

/-- STATUS as read is `TVALID << 3 | MODE << 2 | RUN`, and FAULT after each fault is `CAUSE << 8 | KIND`, with the numbers of
10_state.md R25 to R27 and R30, 60_exceptions.md R261 and R262. -/
def Obligations.StatusAndFaultWords : Prop :=
  ∀ s : State,
    (regRead 0x01 s).toNat = 8 * s.tvalid.toNat + 4 * (if s.mode = .split then 1 else 0) +
      (if s.run = .idle then 0 else if s.run = .active then 1 else if s.run = .done then 2 else 3) ∧
    regRead 0x02 (s.raise .verUnknown) = 0x1001 ∧ regRead 0x02 (s.raise .verFwupdate) = 0x1101 ∧
    regRead 0x02 (s.raise .badCount) = 0x1201 ∧ regRead 0x02 (s.raise .curveUnwritten) = 0x1301 ∧
    regRead 0x02 (s.raise .maxlenZero) = 0x2002 ∧ regRead 0x02 (s.raise .tooManySymbols) = 0x2102 ∧
    regRead 0x02 (s.raise .oversubscribed) = 0x2202 ∧ regRead 0x02 (s.raise .badPayload) = 0x2302 ∧
    regRead 0x02 (s.raise .codeUnassigned) = 0x2402 ∧ regRead 0x02 (s.raise .dataExhausted) = 0x3003 ∧
    regRead 0x02 (s.raise .metaExhausted) = 0x3103 ∧ regRead 0x02 (s.raise .bounds) = 0x4004 ∧
    regRead 0x02 (s.raise .badCmd) = 0x5005 ∧ regRead 0x02 (s.raise .badState) = 0x5105 ∧
    regRead 0x02 (s.raise .badConfig) = 0x5205 ∧ regRead 0x02 (s.raise .noTable) = 0x5305 ∧
    regRead 0x02 (s.raise .badAccess) = 0x5405

/-- In FAULT every instruction but RESET leaves the state as it is, and so does every host write but that of RESET
(44_host_commands.md R230, R240; 60_exceptions.md R275: no second fault). For a pixel record by itself that is the
model's reading (log entry 11). -/
def Obligations.FaultIgnoresAllButReset : Prop :=
  (∀ (i : Instr) (s : State), s.run = .fault → i ≠ .reset → exec i s = .next s) ∧
  ∀ (s : State) (addr : Byte) (v : Word) (rest : List HostAccess), s.run = .fault →
    s.hostIn = .write addr v :: rest → ¬(addr = 0 ∧ v = 0x0100) → step s = .next { s with hostIn := rest }

/-- Nothing but a reset leaves FAULT or DONE, and a step that leaves DONE without a reset goes to FAULT
(10_state.md R26, 60_exceptions.md R273). -/
def Obligations.OnlyResetLeavesFaultAndDone : Prop :=
  ∀ s t : State, step s = .next t → nextIsReset s = false →
    (s.run = .fault → t.run = .fault) ∧ (s.run = .done → t.run = .done ∨ t.run = .fault)

/-! ### Encodings -/

/-- Which command words are reserved (30_encoding.md R103, R104): all but those with an opcode of 0x00 to 0x0B and the
argument 0, or for HBLD at most 5 and for RDB at most 16. Outside FAULT, where the write is ignored
(44_host_commands.md R230), a reserved word has no effect but the refusal with BAD_CMD, whatever the state. -/
def Obligations.ReservedCommandWords : Prop :=
  ∀ w : Word,
    ((∃ i, decodeCommand w = .ok i) ↔
      w.toNat / 256 ≤ 0x0B ∧
        (if w.toNat / 256 = 0x05 then w.toNat % 256 ≤ 5
         else if w.toNat / 256 = 0x0A then w.toNat % 256 ≤ 16
         else w.toNat % 256 = 0)) ∧
    ∀ (e : DecodeError) (s : State), decodeCommand w = .error e → s.run ≠ .fault → command w s = .next (s.raise .badCmd)

/-- Decoding what the encoder writes gives the instruction back, for every well-formed instruction (30_encoding.md R92,
R93, R97, R103). -/
def Obligations.DecodeOfEncode : Prop :=
  ∀ i : Instr, i.wf = true → decode (encode i) = .ok i

/-- A command word that decodes is the word the encoder writes for its instruction, which is well-formed: no bit of a
command word is dropped (30_encoding.md R102, R104). -/
def Obligations.EncodeOfDecodedCommand : Prop :=
  ∀ (w : Word) (i : Instr), decodeCommand w = .ok i → i.wf = true ∧ encode i = .cmd w

/-- A record at the front of a stream is read whole whatever bits follow it (30_encoding.md R95, R97), under the candidate
tables (PRESUMED, log entry 6). -/
def Obligations.StreamRecordReadWhole : Prop :=
  ∀ (i : Instr) (t : Nat) (bits rest : List Bool), encode i = .stream t bits →
    decodeStream t (bits ++ rest) = .ok (i, rest)

/-- A few words written out from the spec's encodings decode to what they stand for (30_encoding.md R103, R93;
95_test_vectors.md V10). -/
def Obligations.WrittenOutWords : Prop :=
  decode (.cmd 0x0000) = .ok .nop ∧ decode (.cmd 0x0503) = .ok (.hbld 3) ∧
  decode (.cmd 0x0A10) = .ok (.rdb 16) ∧ decode (.cmd 0x0B00) = .ok .hdec ∧
  decode (.cmd 0x0506) = .error .argOutOfRange ∧ decode (.cmd 0x0201) = .error .argNotZero ∧
  decode (.cmd 0x0C00) = .error .reservedOpcode ∧
  decode (.record 0x00 []) = .ok .pxZero ∧
  decode (.record 0x03 [true, false, false]) = .ok (.pxPlain 3 4) ∧
  decode (.record 0x14 [true, false, true]) = .ok (.pxScaled 4 1 5) ∧
  decode (.record 0x21 []) = .error .illegalPayload ∧
  decode (.stream 4 [true, false, true, false, false, false, false, false, false, true]) = .ok (.t4c04 1)

/-- The codeword rows of each candidate table are the codes of 30_encoding.md R94, and the six tables together meet the
constraint of 41_huffman.md R147 on HROM: each passes the checks of R142 and is complete (the tables are PRESUMED, log
entry 6). -/
def Obligations.CandidateTablesCanonical : Prop :=
  (∀ t : Fin 6, (codeRows t.val).map (fun r => (r.clen, r.code, r.payload)) = canonicalCodes candidateHrom[t]) ∧
    HromComplete candidateHrom

/-! ### A step runs the decoded instruction -/

/-- A host write to CMD outside FAULT: a word that decodes runs its instruction on the state less that access, and a
reserved word is refused with BAD_CMD whatever the state of RUN (44_host_commands.md R232, R233; 30_encoding.md R104). -/
def Obligations.StepRunsDecodedCommand : Prop :=
  ∀ (s : State) (w : Word) (rest : List HostAccess), s.hostIn = .write 0 w :: rest → s.run ≠ .fault →
    (∀ i, decodeCommand w = .ok i → step s = exec i { s with hostIn := rest }) ∧
    (∀ e, decodeCommand w = .error e → step s = .next (({ s with hostIn := rest } : State).raise .badCmd))

/-- The host's STEP while ACTIVE, away from the split row: once the record at BP is fetched, it stands for a well-formed
instruction, and the step is the execution of that instruction in the state the fetch left (43_predictive.md R205;
44_host_commands.md R242). The names of the records of a candidate table are PRESUMED (log entry 6). -/
def Obligations.StepRunsFetchedRecord : Prop :=
  ∀ (s s1 : State) (rest : List HostAccess) (r : Record),
    s.hostIn = .write 0 0x0700 :: rest → s.run = .active → splitDue s = false →
    HoldsTable (hromTable s s.tsel.toNat) s →
    fetchRecord { s with hostIn := rest } = .ok r s1 →
    ∃ i, recordInstr (hromTable s s.tsel.toNat) s.tsel.toNat r.clen r.code r.payload r.raw = some i ∧
      i.wf = true ∧ step s = exec i s1

/-- With no access pending the block waits: the step changes nothing (60_exceptions.md R285, 70_reset_and_hazards.md
R302). -/
def Obligations.NoAccessNoChange : Prop :=
  ∀ s : State, s.hostIn = [] → step s = .next s

/-! ### The pixel records -/

/-- The three classes of record complete with the effect of 43_predictive.md R196 to R200 and R204 and the residual of
30_encoding.md R93, for every payload and raw field the class admits. The instruction is the execution of a record already
fetched, so BP stays: that the fetch (R191, R192), which moves BP, stands outside it is the model's choice (log entry 6). -/
def Obligations.RecordClassesComplete : Prop :=
  RecordCompletes .pxZero 0 0 0 ∧
  (∀ len raw, (Instr.pxPlain len raw).wf = true → RecordCompletes (.pxPlain len raw) len 0 raw) ∧
  (∀ len shl raw, (Instr.pxScaled len shl raw).wf = true → RecordCompletes (.pxScaled len shl raw) len shl raw)

/-- Every codeword row of the 12-bit candidate tables (T0.C00 to T2.C12) completes with the effect of its payload and raw
field (43_predictive.md R196 to R200, R204; the rows are PRESUMED, log entry 6). -/
def Obligations.Tables0To2RecordsComplete : Prop :=
  (∀ raw, RecordCompletes (.t0c00 raw) 5 0 raw.toNat) ∧
  (∀ raw, RecordCompletes (.t0c01 raw) 4 0 raw.toNat) ∧
  (∀ raw, RecordCompletes (.t0c02 raw) 3 0 raw.toNat) ∧
  (∀ raw, RecordCompletes (.t0c03 raw) 6 0 raw.toNat) ∧
  (∀ raw, RecordCompletes (.t0c04 raw) 2 0 raw.toNat) ∧
  (∀ raw, RecordCompletes (.t0c05 raw) 7 0 raw.toNat) ∧
  (∀ raw, RecordCompletes (.t0c06 raw) 1 0 raw.toNat) ∧
  RecordCompletes .t0c07 0 0 0 ∧
  (∀ raw, RecordCompletes (.t0c08 raw) 8 0 raw.toNat) ∧
  (∀ raw, RecordCompletes (.t0c09 raw) 9 0 raw.toNat) ∧
  (∀ raw, RecordCompletes (.t0c10 raw) 11 0 raw.toNat) ∧
  (∀ raw, RecordCompletes (.t0c11 raw) 10 0 raw.toNat) ∧
  (∀ raw, RecordCompletes (.t0c12 raw) 12 0 raw.toNat) ∧
  RecordCompletes .t0c13 0 0 0 ∧
  (∀ raw, RecordCompletes (.t1c00 raw) 9 3 raw.toNat) ∧
  (∀ raw, RecordCompletes (.t1c01 raw) 10 5 raw.toNat) ∧
  (∀ raw, RecordCompletes (.t1c02 raw) 8 3 raw.toNat) ∧
  (∀ raw, RecordCompletes (.t1c03 raw) 7 2 raw.toNat) ∧
  (∀ raw, RecordCompletes (.t1c04 raw) 6 1 raw.toNat) ∧
  (∀ raw, RecordCompletes (.t1c05 raw) 5 0 raw.toNat) ∧
  (∀ raw, RecordCompletes (.t1c06 raw) 4 0 raw.toNat) ∧
  (∀ raw, RecordCompletes (.t1c07 raw) 3 0 raw.toNat) ∧
  (∀ raw, RecordCompletes (.t1c08 raw) 2 0 raw.toNat) ∧
  (∀ raw, RecordCompletes (.t1c09 raw) 1 0 raw.toNat) ∧
  RecordCompletes .t1c10 0 0 0 ∧
  (∀ raw, RecordCompletes (.t1c11 raw) 11 0 raw.toNat) ∧
  (∀ raw, RecordCompletes (.t1c12 raw) 12 0 raw.toNat) ∧
  (∀ raw, RecordCompletes (.t1c13 raw) 12 0 raw.toNat) ∧
  (∀ raw, RecordCompletes (.t2c00 raw) 5 0 raw.toNat) ∧
  (∀ raw, RecordCompletes (.t2c01 raw) 4 0 raw.toNat) ∧
  (∀ raw, RecordCompletes (.t2c02 raw) 6 0 raw.toNat) ∧
  (∀ raw, RecordCompletes (.t2c03 raw) 3 0 raw.toNat) ∧
  (∀ raw, RecordCompletes (.t2c04 raw) 7 0 raw.toNat) ∧
  (∀ raw, RecordCompletes (.t2c05 raw) 2 0 raw.toNat) ∧
  (∀ raw, RecordCompletes (.t2c06 raw) 8 0 raw.toNat) ∧
  (∀ raw, RecordCompletes (.t2c07 raw) 1 0 raw.toNat) ∧
  (∀ raw, RecordCompletes (.t2c08 raw) 9 0 raw.toNat) ∧
  RecordCompletes .t2c09 0 0 0 ∧
  (∀ raw, RecordCompletes (.t2c10 raw) 10 0 raw.toNat) ∧
  (∀ raw, RecordCompletes (.t2c11 raw) 11 0 raw.toNat) ∧
  (∀ raw, RecordCompletes (.t2c12 raw) 12 0 raw.toNat)

/-- Every codeword row of the 14-bit candidate tables (T3.C00 to T5.C14) completes with the effect of its payload and raw
field (43_predictive.md R196 to R200, R204; the rows are PRESUMED, log entry 6). -/
def Obligations.Tables3To5RecordsComplete : Prop :=
  (∀ raw, RecordCompletes (.t3c00 raw) 5 0 raw.toNat) ∧
  (∀ raw, RecordCompletes (.t3c01 raw) 6 0 raw.toNat) ∧
  (∀ raw, RecordCompletes (.t3c02 raw) 4 0 raw.toNat) ∧
  (∀ raw, RecordCompletes (.t3c03 raw) 7 0 raw.toNat) ∧
  (∀ raw, RecordCompletes (.t3c04 raw) 8 0 raw.toNat) ∧
  (∀ raw, RecordCompletes (.t3c05 raw) 3 0 raw.toNat) ∧
  (∀ raw, RecordCompletes (.t3c06 raw) 9 0 raw.toNat) ∧
  (∀ raw, RecordCompletes (.t3c07 raw) 2 0 raw.toNat) ∧
  (∀ raw, RecordCompletes (.t3c08 raw) 1 0 raw.toNat) ∧
  RecordCompletes .t3c09 0 0 0 ∧
  (∀ raw, RecordCompletes (.t3c10 raw) 10 0 raw.toNat) ∧
  (∀ raw, RecordCompletes (.t3c11 raw) 11 0 raw.toNat) ∧
  (∀ raw, RecordCompletes (.t3c12 raw) 12 0 raw.toNat) ∧
  (∀ raw, RecordCompletes (.t3c13 raw) 13 0 raw.toNat) ∧
  (∀ raw, RecordCompletes (.t3c14 raw) 14 0 raw.toNat) ∧
  (∀ raw, RecordCompletes (.t4c00 raw) 8 0 raw.toNat) ∧
  (∀ raw, RecordCompletes (.t4c01 raw) 12 5 raw.toNat) ∧
  (∀ raw, RecordCompletes (.t4c02 raw) 11 4 raw.toNat) ∧
  (∀ raw, RecordCompletes (.t4c03 raw) 10 3 raw.toNat) ∧
  (∀ raw, RecordCompletes (.t4c04 raw) 9 2 raw.toNat) ∧
  (∀ raw, RecordCompletes (.t4c05 raw) 7 0 raw.toNat) ∧
  (∀ raw, RecordCompletes (.t4c06 raw) 6 0 raw.toNat) ∧
  (∀ raw, RecordCompletes (.t4c07 raw) 5 0 raw.toNat) ∧
  (∀ raw, RecordCompletes (.t4c08 raw) 4 0 raw.toNat) ∧
  (∀ raw, RecordCompletes (.t4c09 raw) 3 0 raw.toNat) ∧
  (∀ raw, RecordCompletes (.t4c10 raw) 2 0 raw.toNat) ∧
  (∀ raw, RecordCompletes (.t4c11 raw) 1 0 raw.toNat) ∧
  RecordCompletes .t4c12 0 0 0 ∧
  (∀ raw, RecordCompletes (.t4c13 raw) 13 0 raw.toNat) ∧
  (∀ raw, RecordCompletes (.t4c14 raw) 14 0 raw.toNat) ∧
  (∀ raw, RecordCompletes (.t5c00 raw) 7 0 raw.toNat) ∧
  (∀ raw, RecordCompletes (.t5c01 raw) 6 0 raw.toNat) ∧
  (∀ raw, RecordCompletes (.t5c02 raw) 8 0 raw.toNat) ∧
  (∀ raw, RecordCompletes (.t5c03 raw) 5 0 raw.toNat) ∧
  (∀ raw, RecordCompletes (.t5c04 raw) 9 0 raw.toNat) ∧
  (∀ raw, RecordCompletes (.t5c05 raw) 4 0 raw.toNat) ∧
  (∀ raw, RecordCompletes (.t5c06 raw) 10 0 raw.toNat) ∧
  (∀ raw, RecordCompletes (.t5c07 raw) 3 0 raw.toNat) ∧
  (∀ raw, RecordCompletes (.t5c08 raw) 11 0 raw.toNat) ∧
  (∀ raw, RecordCompletes (.t5c09 raw) 12 0 raw.toNat) ∧
  (∀ raw, RecordCompletes (.t5c10 raw) 2 0 raw.toNat) ∧
  RecordCompletes .t5c11 0 0 0 ∧
  (∀ raw, RecordCompletes (.t5c12 raw) 1 0 raw.toNat) ∧
  (∀ raw, RecordCompletes (.t5c13 raw) 13 0 raw.toNat) ∧
  (∀ raw, RecordCompletes (.t5c14 raw) 14 0 raw.toNat)

/-- Where a record faults after its fetch: outside the bounds with BOUNDS, inside them over an unwritten curve entry with
CURVE_UNWRITTEN; the lanes hold the new value, the position is the pixel's, nothing is written to the raster
(43_predictive.md R198, R199; 60_exceptions.md R271). -/
def Obligations.RecordFaultsKeepTheLane : Prop :=
  ∀ (i : Instr) (len shl raw : Nat) (s : State),
    (i = .pxZero ∧ len = 0 ∧ shl = 0 ∧ raw = 0 ∨ i = .pxPlain len raw ∧ shl = 0 ∨ i = .pxScaled len shl raw) →
    i.wf = true → s.run = .active →
    (s.maxReg.toNat ≤ (pixelPred (recordDiff len shl raw) s + s.minReg).toNat →
      exec i s = .next ((pixelLanes (pixelPred (recordDiff len shl raw) s) s).raise .bounds)) ∧
    ((pixelPred (recordDiff len shl raw) s + s.minReg).toNat < s.maxReg.toNat →
      storeGet s.curve (min (pixelPred (recordDiff len shl raw) s).toInt.toNat 0x3fff) = none →
      exec i s = .next ((pixelLanes (pixelPred (recordDiff len shl raw) s) s).raise .curveUnwritten))

/-- The residual of 43_predictive.md R193 to R195 is that of the payload classes (30_encoding.md R93) and lies in
-(2^15 - 1) to 2^15 - 1 (R207). -/
def Obligations.ResidualByPayloadClass : Prop :=
  ∀ len shl raw : Nat, shl ≤ len → len ≤ 15 → raw < 2 ^ (len - shl) →
    residual len shl raw = recordDiff len shl raw ∧
      -(2 ^ 15 - 1) ≤ residual len shl raw ∧ residual len shl raw ≤ 2 ^ 15 - 1

/-- `px.d d` (30_encoding.md R106): for every nonzero d of 15 bits, the PX.PLAIN record with len the number of bits of |d|
and raw = d or d + 2^len - 1 has residual d. -/
def Obligations.PlainResidualInverse : Prop :=
  ∀ d : Int, d ≠ 0 → d.natAbs < 2 ^ 15 →
    let len := d.natAbs.size
    let raw := if 0 < d then d.toNat else (d + 2 ^ len - 1).toNat
    1 ≤ len ∧ len ≤ 15 ∧ raw < 2 ^ len ∧ residual len 0 raw = d

/-- With MAX at most 0x4021 and MIN 0 or 16, as while ACTIVE, the bounds check passes if and only if
-MIN <= s16(pred) < MAX - MIN (43_predictive.md R198, 90_conflicts.md C5). -/
def Obligations.BoundsAreASignedWindow : Prop :=
  ∀ (s : State) (pred : Word), s.maxReg.toNat ≤ 0x4021 → (s.minReg = 0 ∨ s.minReg = 16) →
    (outOfBounds s pred = false ↔
      -(s.minReg.toNat : Int) ≤ pred.toInt ∧ pred.toInt < (s.maxReg.toNat : Int) - s.minReg.toNat)

/-! ### STEP and RUN -/

/-- STEP completes: away from the split row, with the k-th codeword of the table held and its raw bits next in DATA, the
new lane value inside the bounds and the curve written there, STEP decodes that one pixel and BP moves past the record
(43_predictive.md R205, 41_huffman.md R145, 44_host_commands.md R242). -/
def Obligations.StepDecodesOnePixel : Prop :=
  ∀ (s : State) (table : PackedTable) (k : Nat) (v : Word),
    s.run = .active → splitDue s = false → HoldsTable table s → k < (tableLengths table).length →
    let l := codeLength table k
    let n := payloadRawBits (codePayload table k)
    let raw := bitsAt s (bitPos s + l) n
    let p := pixelPred (recordDiff (payloadLen (codePayload table k)) (payloadShl (codePayload table k)) raw) s
    l + n ≤ bitsLeft s → bitsAt s (bitPos s) l = codeword table k →
    (p + s.minReg).toNat < s.maxReg.toNat → storeGet s.curve (min p.toInt.toNat 0x3fff) = some v →
    exec .step s = .next (pixelResult p v (s.setBitPos (bitPos s + l + n)))

/-- STEP over a record that cannot be fetched, the lanes, the position and the raster as they were: DATA ends in the raw bits
or in the codeword, and BP is left at (SRCLEN, 0); or the bits leave the codes of the table, and BP is left after the bit
that did (40_bitreader.md R122, R123; 41_huffman.md R145; 60_exceptions.md R271). -/
def Obligations.StepOverTruncatedRecord : Prop :=
  ∀ (s : State) (table : PackedTable), s.run = .active → splitDue s = false → HoldsTable table s →
    (∀ k < (tableLengths table).length,
      bitPos s ≤ 8 * s.srclen.toNat → codeLength table k ≤ bitsLeft s →
      bitsLeft s < codeLength table k + payloadRawBits (codePayload table k) →
      bitsAt s (bitPos s) (codeLength table k) = codeword table k →
      exec .step s = .next ((s.setBp s.srclen 0).raise .dataExhausted)) ∧
    (CodewordTruncated table s → exec .step s = .next ((s.setBp s.srclen 0).raise .dataExhausted)) ∧
    ∀ l, UnassignedAt table s l →
      exec .step s = .next ((s.setBitPos (bitPos s + l)).raise .codeUnassigned)

/-- STEP at the split row: BP goes to the byte boundary, table TSEL + 1 is built, MAX grows by 32, MIN is 16, MODE is SPLIT,
and the pixel is decoded from there (43_predictive.md R202, R203). -/
def Obligations.StepAtSplitRow : Prop :=
  ∀ s : State, s.run = .active → splitDue s = true → s.tsel.toNat + 1 ≤ 5 →
    Buildable (hromTable s (s.tsel.toNat + 1)) →
    ∃ slots, SlotsOf (hromTable s (s.tsel.toNat + 1)) slots ∧
      (∀ q, 2 ^ tableMaxLen (hromTable s (s.tsel.toNat + 1)) ≤ q → storeGet slots q = storeGet s.hslot q) ∧
      exec .step s = exec .step
        { withTable (hromTable s (s.tsel.toNat + 1)) (s.tsel.toNat + 1) slots
            (if s.bpBit = 0 then s else s.setBp (s.bpByte + 1) 0) with
          maxReg := s.maxReg + 32, minReg := 16, mode := .split }

/-- A failed build at the split row: the cause is that of the check that fails, BP is aligned, TVALID is 0, HSLOT and MAXLEN
are as the build left them, the fault record is written, and all else (TSEL, FILL, MIN, MAX, MODE, the lanes, the position,
the raster) is as it was (43_predictive.md R203, 41_huffman.md R142, R144, 60_exceptions.md R271). -/
def Obligations.SplitBuildFault : Prop :=
  ∀ s : State, s.run = .active → splitDue s = true → s.tsel.toNat + 1 ≤ 5 →
    ¬ Buildable (hromTable s (s.tsel.toNat + 1)) →
    ∃ (c : FaultCause) (m : BitVec 5) (slots : List (Nat × Slot)),
      FailedBuild (hromTable s (s.tsel.toNat + 1)) s c m slots ∧
      exec .step s = .next
        (({ (if s.bpBit = 0 then s else s.setBp (s.bpByte + 1) 0) with
            tvalid := false, hslot := slots, maxlen := m } : State).raise c)

/-- The one stop of the model: a split transition with no table TSEL + 1 in HROM (10_state.md R36; the model's choice, log
entry 5). -/
def Obligations.SplitWithoutTableStops : Prop :=
  ∀ s : State, s.run = .active → splitDue s = true → 5 < s.tsel.toNat + 1 →
    exec .step s = .fault (.noSuchTable (s.tsel.toNat + 1))

/-- RUN is STEP and then, if the decode goes on, RUN (43_predictive.md R206, 44_host_commands.md R243). -/
def Obligations.RunIsStepThenRun : Prop :=
  ∀ s t : State, inv s = true → s.run = .active → exec .step s = .next t →
    (t.run = .active → exec .run s = exec .run t) ∧ (t.run ≠ .active → exec .run s = .next t)

/-- RUN ends: in FAULT, or in DONE with ROW = HEIGHT and COL = 0 (43_predictive.md R204, R206; 70_reset_and_hazards.md
R313). -/
def Obligations.RunEndsTheDecode : Prop :=
  ∀ s : State, inv s = true → s.run = .active →
    ∃ t, exec .run s = .next t ∧ (t.run = .fault ∨ (t.run = .done ∧ t.row = s.height ∧ t.col = 0))

/-- RUN completes: with all residuals zero (slot 0 a code of length 1 and payload 0x00, DATA all 0 bits), the curve the
identity at the four vertical lanes and the whole row visible, RUN from (0, 0) ends in DONE and writes, in row-major
order, at every (r, c) the lane of r's and c's parity (43_predictive.md R209 f). -/
def Obligations.ZeroResidualImage : Prop :=
  ∀ s : State, s.run = .active → s.row = 0 → s.col = 0 → s.split = 0 → s.bpByte = 0 → s.bpBit = 0 → s.minReg = 0 →
    s.lmargin = 0 → s.visw = s.raww → 0 < s.height.toNat → 0 < s.raww.toNat →
    1 ≤ s.maxlen.toNat → 1 ≤ s.fill.toNat → storeGet s.hslot 0 = some ⟨1, 0⟩ →
    s.height.toNat * s.raww.toNat ≤ 8 * s.srclen.toNat →
    (∀ p < s.height.toNat * s.raww.toNat, dataBit s (p / 8) (p % 8) = false) →
    (∀ r c, (s.vpred r c).toNat < s.maxReg.toNat ∧ (s.vpred r c).toNat ≤ 0x3fff ∧
      storeGet s.curve (s.vpred r c).toNat = some (s.vpred r c)) →
    ∃ t, exec .run s = .next t ∧ bitPos t = s.height.toNat * s.raww.toNat ∧
      t.hpred0 = s.vpred (decide ((s.height.toNat - 1) % 2 = 1)) false ∧
      t.hpred1 = (if 2 ≤ s.raww.toNat then s.vpred (decide ((s.height.toNat - 1) % 2 = 1)) true else s.hpred1) ∧
      t = { s with
        hpred0 := t.hpred0, hpred1 := t.hpred1, bpByte := t.bpByte, bpBit := t.bpBit
        row := s.height, col := 0, run := .done
        raster := s.raster ++
          (List.range s.height.toNat).flatMap fun r =>
            (List.range s.raww.toNat).map fun c =>
              ⟨BitVec.ofNat 16 r, BitVec.ofNat 16 c, s.vpred (decide (r % 2 = 1)) (decide (c % 2 = 1))⟩ }

/-! ### The table builder and the symbol decoder -/

/-- HBLD completes on a table that passes the checks of 41_huffman.md R142: the slots of R143, MAXLEN, FILL, TSEL, TVALID;
slots at and beyond 2^MAXLEN keep what they held, and nothing else changes (R144, 44_host_commands.md R239). -/
def Obligations.HbldBuildsTheTable : Prop :=
  ∀ (n : Byte) (s : State), s.run = .idle → n.toNat ≤ 5 → Buildable (hromTable s n.toNat) →
    ∃ slots, exec (.hbld n) s = .next (withTable (hromTable s n.toNat) n.toNat slots s) ∧
      SlotsOf (hromTable s n.toNat) slots ∧
      ∀ q, 2 ^ tableMaxLen (hromTable s n.toNat) ≤ q → storeGet slots q = storeGet s.hslot q

/-- HBLD on a table that fails a check of 41_huffman.md R142: the cause is that of the first check that fails, TVALID is 0,
MAXLEN and HSLOT are as the build left them, with the codes before the one that fails in their slots, and TSEL, FILL and
all else are as they were (R144). -/
def Obligations.HbldBuildFaults : Prop :=
  ∀ (n : Byte) (s : State), s.run = .idle → n.toNat ≤ 5 → ¬ Buildable (hromTable s n.toNat) →
    ∃ (c : FaultCause) (m : BitVec 5) (slots : List (Nat × Slot)),
      FailedBuild (hromTable s n.toNat) s c m slots ∧
      exec (.hbld n) s = .next (({ s with tvalid := false, hslot := slots, maxlen := m } : State).raise c)

/-- HDEC with a table held: the k-th codeword next in DATA gives RESULT the k-th payload, zero-extended, and BP past the
codeword; DATA that ends inside a codeword, and bits that leave the codes, fault with RESULT as it was and BP after the bits
read. Nothing else changes (41_huffman.md R145, 44_host_commands.md R247, 60_exceptions.md R271). -/
def Obligations.HdecReadsTheCodeword : Prop :=
  ∀ (s : State) (table : PackedTable), (s.run = .idle ∨ s.run = .active) → HoldsTable table s →
    (∀ k < (tableLengths table).length, codeLength table k ≤ bitsLeft s →
      bitsAt s (bitPos s) (codeLength table k) = codeword table k →
      exec .hdec s = .next
        { s.setBitPos (bitPos s + codeLength table k) with result := (codePayload table k).setWidth 16 }) ∧
    (CodewordTruncated table s → exec .hdec s = .next ((s.setBp s.srclen 0).raise .dataExhausted)) ∧
    ∀ l, UnassignedAt table s l →
      exec .hdec s = .next ((s.setBitPos (bitPos s + l)).raise .codeUnassigned)

/-- The flat-array realisation agrees with the bit-serial walk, on every bit sequence, faults and BP at the fault
included (41_huffman.md R150, 40_bitreader.md R126). -/
def Obligations.FlatDecoderAgrees : Prop :=
  ∀ (s : State) (table : PackedTable), HoldsTable table s → hdecFlat s = hdec s

/-! ### The bit reader commands -/

/-- RDB n: with n bits left RESULT is those bits, first bit most significant, and BP is n bits on; with fewer left it
faults with BP at (SRCLEN, 0) and RESULT as it was (40_bitreader.md R123, 44_host_commands.md R246). -/
def Obligations.RdbReadsBits : Prop :=
  ∀ (n : Byte) (s : State), n.toNat ≤ 16 → (s.run = .idle ∨ s.run = .active) →
    (n.toNat ≤ bitsLeft s →
      exec (.rdb n) s = .next
        { s.setBitPos (bitPos s + n.toNat) with result := BitVec.ofNat 16 (bitsAt s (bitPos s) n.toNat) }) ∧
    (bitsLeft s < n.toNat → bitPos s ≤ 8 * s.srclen.toNat →
      exec (.rdb n) s = .next ((s.setBp s.srclen 0).raise .dataExhausted))

/-- BRST moves BP to the next byte boundary, or leaves it on one; nothing else changes (40_bitreader.md R124,
44_host_commands.md R245). -/
def Obligations.BrstAligns : Prop :=
  ∀ s : State, (s.run = .idle ∨ s.run = .active) →
    exec .brst s = .next
      (if s.bpBit = 0 then s else { s with bpByte := s.bpByte + 1, bpBit := 0 })

/-! ### The curve commands -/

/-- CTRIM completes where the curve is written below MAX: only MAX changes, to the trimmed length (42_curve.md R173,
44_host_commands.md R238). -/
def Obligations.CtrimTrims : Prop :=
  ∀ s : State, s.run = .idle → s.maxReg.toNat ≤ 16385 →
    (∀ j < s.maxReg.toNat, ∃ v, storeGet s.curve j = some v) →
    ∃ m, exec .ctrim s = .next { s with maxReg := BitVec.ofNat 16 m } ∧ Trimmed s.curve s.maxReg.toNat m

/-- Trimming again changes nothing (42_curve.md R173: "trimming is idempotent"). -/
def Obligations.TrimIdempotent : Prop :=
  ∀ s t : State, ctrim s = .ok () t → ctrim t = .ok () t

/-- CINT completes where the samples are written at the multiples of the step and reach the end of the curve: every index
below 2^BPS gets the exact interpolated value, the others keep theirs, MAX is 2^BPS, and nothing else changes
(42_curve.md R170, R171; 44_host_commands.md R237). -/
def Obligations.CintInterpolates : Prop :=
  ∀ (s : State) (sample : Nat → Word), s.run = .idle → (s.bps = 12 ∨ s.bps = 14) →
    let m := 2 ^ s.bps.toNat
    let n := s.csize.toNat
    let step := m / (n - 1)
    2 ≤ n → 1 ≤ step → m ≤ (n - 1) * step + 1 →
    (∀ k < n, storeGet s.curve (k * step) = some (sample k)) →
    ∃ curve, exec .cint s = .next { s with curve := curve, maxReg := BitVec.ofNat 16 m } ∧
      (∀ i < m, ∃ v, storeGet curve i = some v ∧
        v.toNat = interpolated (sample (i / step)) (sample (i / step + 1)) step i) ∧
      ∀ i, m ≤ i → storeGet curve i = storeGet s.curve i

/-- HDR completes on a header of class LOSSY2 whose samples reach the end of the curve: version, seeds, count, the
interpolated curve, MAX trimmed, the split row, LOSSLESS clear, and nothing else (42_curve.md R165, R168, R170, R173;
30_encoding.md R96). -/
def Obligations.HdrLoadsLossy : Prop :=
  ∀ s : State, s.run = .idle → (s.bps = 12 ∨ s.bps = 14) →
    hdrClass s.cfg (memRead s.metaMem 0) (memRead s.metaMem 1) = .lossy2 →
    let m := 2 ^ s.bps.toNat
    let n := (meta16 s 10).toNat
    let step := m / (n - 1)
    let sample := fun k => meta16 s (12 + 2 * k)
    2 ≤ n → 1 ≤ step → m ≤ (n - 1) * step + 1 → 12 + 2 * n ≤ s.metalen.toNat → s.cfg.splitOff + 2 ≤ s.metalen.toNat →
    ∃ curve len,
      exec .hdr s = .next
        { s with
          ver := memRead s.metaMem 0 ++ memRead s.metaMem 1
          vseed0 := meta16 s 2, vseed1 := meta16 s 4, vseed2 := meta16 s 6, vseed3 := meta16 s 8
          csize := meta16 s 10, split := meta16 s s.cfg.splitOff, lossless := false
          curve := curve, maxReg := BitVec.ofNat 16 len } ∧
      (∀ i < m, ∃ v, storeGet curve i = some v ∧
        v.toNat = interpolated (sample (i / step)) (sample (i / step + 1)) step i) ∧
      (∀ i, m ≤ i → storeGet curve i = if i = m ∧ (n - 1) * step = m then some (sample (n - 1)) else none) ∧
      Trimmed curve m len

/-- HDR completes on a header of class DIRECT: version, seeds, count, the samples at 0 to count - 1, MAX trimmed, SPLIT 0,
LOSSLESS set, and nothing else (42_curve.md R165, R169, R173; 30_encoding.md R96). -/
def Obligations.HdrLoadsDirect : Prop :=
  ∀ s : State, s.run = .idle → (s.bps = 12 ∨ s.bps = 14) →
    hdrClass s.cfg (memRead s.metaMem 0) (memRead s.metaMem 1) = .direct →
    let n := (meta16 s 10).toNat
    1 ≤ n → n ≤ 0x4001 → 12 + 2 * n ≤ s.metalen.toNat →
    ∃ curve len,
      exec .hdr s = .next
        { s with
          ver := memRead s.metaMem 0 ++ memRead s.metaMem 1
          vseed0 := meta16 s 2, vseed1 := meta16 s 4, vseed2 := meta16 s 6, vseed3 := meta16 s 8
          csize := meta16 s 10, split := 0, lossless := true
          curve := curve, maxReg := BitVec.ofNat 16 len } ∧
      (∀ k, storeGet curve k = if k < n then some (meta16 s (12 + 2 * k)) else none) ∧
      Trimmed curve n len

/-- HDR refuses a header of class FWUPDATE or UNKNOWN after the version bytes, with VER written and nothing else
(42_curve.md R165 to R167). -/
def Obligations.HdrRefusesUnknownClasses : Prop :=
  ∀ s : State, s.run = .idle → (s.bps = 12 ∨ s.bps = 14) → 2 ≤ s.metalen.toNat →
    let b0 := memRead s.metaMem 0
    let b1 := memRead s.metaMem 1
    (hdrClass s.cfg b0 b1 = .fwupdate →
      exec .hdr s = .next (({ s with ver := b0 ++ b1 } : State).raise .verFwupdate)) ∧
    (hdrClass s.cfg b0 b1 = .unknown →
      exec .hdr s = .next (({ s with ver := b0 ++ b1 } : State).raise .verUnknown))

/-! ### START, NOP and the gating -/

/-- START completes where none of its refusals holds and the table of 41_huffman.md R141 builds: the lanes are the seeds,
MIN 0, MODE NORMAL, ROW, COL and BP 0, RUN ACTIVE or, for an empty image, DONE; HPRED and all else as they were
(44_host_commands.md R241). -/
def Obligations.StartBegins : Prop :=
  ∀ s : State, s.run = .idle → (s.bps = 12 ∨ s.bps = 14) → (s.lossless = false ∨ s.split = 0) →
    s.maxReg.toNat ≤ 0x4001 →
    let t := 3 * (if s.bps = 14 then 1 else 0) + 2 * s.lossless.toNat
    Buildable (hromTable s t) →
    ∃ slots, SlotsOf (hromTable s t) slots ∧
      (∀ q, 2 ^ tableMaxLen (hromTable s t) ≤ q → storeGet slots q = storeGet s.hslot q) ∧
      exec .start s = .next
        { withTable (hromTable s t) t slots s with
          vpred00 := s.vseed0, vpred01 := s.vseed1, vpred10 := s.vseed2, vpred11 := s.vseed3
          minReg := 0, mode := .normal, row := 0, col := 0, bpByte := 0, bpBit := 0
          run := if s.height = 0 ∨ s.raww = 0 then .done else .active }

/-- The refusals and faults the commands make themselves. With nothing else changed: START for a bad depth, a lossless table
with a split row, or MAX above 0x4001; HDR and CINT for a bad depth; HDEC without a table; CINT's bad counts. With what was
written before it kept: START on a table that fails a check, nothing after the build done; CTRIM at the first missing entry;
CINT at the first index without an end point; HDR as `HdrFaults` lists (44_host_commands.md R237, R238, R241, R247;
42_curve.md R165, R168 to R170, R173; 60_exceptions.md R271). -/
def Obligations.CommandRefusals : Prop :=
  ∀ s : State,
    (s.run = .idle →
      ((s.bps ≠ 12 ∧ s.bps ≠ 14) ∨ (s.lossless = true ∧ s.split ≠ 0) ∨ 0x4001 < s.maxReg.toNat) →
      exec .start s = .next (s.raise .badConfig)) ∧
    (s.run = .idle → s.bps ≠ 12 → s.bps ≠ 14 →
      exec .hdr s = .next (s.raise .badConfig) ∧ exec .cint s = .next (s.raise .badConfig)) ∧
    (s.run = .idle → (s.bps = 12 ∨ s.bps = 14) →
      (s.csize.toNat < 2 ∨ 2 ^ s.bps.toNat / (s.csize.toNat - 1) = 0) →
      exec .cint s = .next (s.raise .badCount)) ∧
    ((s.run = .idle ∨ s.run = .active) → s.tvalid = false → exec .hdec s = .next (s.raise .noTable)) ∧
    (let table := hromTable s (3 * (if s.bps = 14 then 1 else 0) + 2 * s.lossless.toNat);
      s.run = .idle → (s.bps = 12 ∨ s.bps = 14) → (s.lossless = false ∨ s.split = 0) → s.maxReg.toNat ≤ 0x4001 →
      ¬ Buildable table →
      ∃ (c : FaultCause) (m : BitVec 5) (slots : List (Nat × Slot)), FailedBuild table s c m slots ∧
        exec .start s = .next (({ s with tvalid := false, hslot := slots, maxlen := m } : State).raise c)) ∧
    (∀ m : Nat, s.run = .idle → 2 ≤ m → m ≤ s.maxReg.toNat →
      (∀ j, m ≤ j → j < s.maxReg.toNat →
        j ≤ 16384 ∧ ∃ v, storeGet s.curve j = some v ∧ storeGet s.curve (m - 1) = some v) →
      (16384 < m - 1 ∨ storeGet s.curve (m - 1) = none ∨ storeGet s.curve (m - 2) = none) →
      exec .ctrim s = .next (({ s with maxReg := BitVec.ofNat 16 m } : State).raise .curveUnwritten)) ∧
    (∀ (sample : Nat → Word) (last : Nat),
      let m := 2 ^ s.bps.toNat
      let step := m / (s.csize.toNat - 1)
      s.run = .idle → (s.bps = 12 ∨ s.bps = 14) → 2 ≤ s.csize.toNat → 1 ≤ step → last < m →
      (∀ i < last, storeGet s.curve (i / step * step) = some (sample (i / step)) ∧
        (i % step ≠ 0 → (i / step + 1) * step ≤ 16384 ∧
          storeGet s.curve ((i / step + 1) * step) = some (sample (i / step + 1)))) →
      (storeGet s.curve (last / step * step) = none ∨
        last % step ≠ 0 ∧ (16384 < (last / step + 1) * step ∨ storeGet s.curve ((last / step + 1) * step) = none)) →
      ∃ curve, exec .cint s = .next (({ s with curve := curve } : State).raise .curveUnwritten) ∧
        CurveThrough curve sample step last ∧
        ∀ i, last ≤ i → storeGet curve i = storeGet s.curve i) ∧
    (s.run = .idle → (s.bps = 12 ∨ s.bps = 14) → HdrFaults s)

/-- NOP does nothing in any state (44_host_commands.md R234). -/
def Obligations.NopDoesNothing : Prop :=
  ∀ s : State, exec .nop s = .next s

/-- The "no" entries of the gating table, each refused with BAD_STATE and nothing else changed: HDR, CINT, CTRIM, HBLD,
START outside IDLE; STEP and RUN outside ACTIVE; BRST, RDB, HDEC in DONE (44_host_commands.md R240). That a pixel
record executed by itself is gated as STEP is, is the model's reading (log entry 11). -/
def Obligations.CommandsRefusedByRunState : Prop :=
  (∀ (s : State) (i : Instr), s.run = .active ∨ s.run = .done →
    (i = .hdr ∨ i = .cint ∨ i = .ctrim ∨ i = .start ∨ ∃ n : Byte, n.toNat ≤ 5 ∧ i = .hbld n) →
    exec i s = .next (s.raise .badState)) ∧
  (∀ (s : State) (i : Instr), s.run = .idle ∨ s.run = .done →
    (i = .step ∨ i = .run ∨ i = .pxZero ∨ (∃ len raw, i = .pxPlain len raw) ∨
      ∃ len shl raw, i = .pxScaled len shl raw) →
    exec i s = .next (s.raise .badState)) ∧
  (∀ (s : State) (i : Instr), s.run = .done →
    (i = .brst ∨ i = .hdec ∨ ∃ n : Byte, n.toNat ≤ 16 ∧ i = .rdb n) →
    exec i s = .next (s.raise .badState))

/-! ### The bus -/

/-- A RW register other than CDATA written in IDLE reads back as written (FLAGS keeps bit 0 only), and every other address
but CDATA reads as before; CDATA shows another entry only where CADDR was written (10_state.md R35). The curve, the other
memories, the raster and the hidden FILL are as they were (44_host_commands.md R230, R231; 10_state.md R30). -/
def Obligations.RegisterWriteReadsBack : Prop :=
  ∀ (s : State) (addr : Byte) (v : Word) (rest : List HostAccess), s.run = .idle →
    s.hostIn = .write addr v :: rest →
    addr ∈ ([0x06, 0x07, 0x08, 0x09, 0x0A, 0x0B, 0x0C, 0x0D, 0x0E, 0x10, 0x11, 0x12, 0x13, 0x15, 0x23, 0x24, 0x25, 0x26,
      0x28] : List Byte) →
    ∃ t, step s = .next t ∧ t.hostIn = rest ∧
      regRead addr.toNat t = (if addr = 0x07 then v &&& 1 else v) ∧
      (∀ b, b ≠ addr.toNat → b ≠ 0x29 → regRead b t = regRead b s) ∧
      (addr ≠ 0x28 → cdataEntry t = cdataEntry s) ∧
      t.fill = s.fill ∧ t.hslot = s.hslot ∧ t.curve = s.curve ∧ t.cfg = s.cfg ∧ t.data = s.data ∧
      t.metaMem = s.metaMem ∧ t.raster = s.raster ∧ t.hostOut = s.hostOut ∧ t.draws = s.draws

/-- CDATA: a write in IDLE with CADDR <= 16384 sets that entry and moves CADDR on; with CADDR beyond it is refused with
BAD_ACCESS (10_state.md R35, 44_host_commands.md R230, 42_curve.md R163). -/
def Obligations.CdataWrites : Prop :=
  ∀ (s : State) (v : Word) (rest : List HostAccess), s.run = .idle → s.hostIn = .write 0x29 v :: rest →
    (s.caddr.toNat ≤ 16384 → ∃ curve,
      step s = .next { s with hostIn := rest, curve := curve, caddr := s.caddr + 1 } ∧
      ∀ i, storeGet curve i = if i = s.caddr.toNat then some v else storeGet s.curve i) ∧
    (16384 < s.caddr.toNat → step s = .next (({ s with hostIn := rest } : State).raise .badAccess))

/-- A host read changes no state of the block. It returns what the register map of 10_state.md R30 shows at the address, 0 at
CMD and at an unmapped address, and at CDATA the entry at CADDR. Where CDATA has none, the value is the model's free value,
which nothing constrains (44_host_commands.md R231, 10_state.md R35; the form of the free value is log entry 4). -/
def Obligations.HostReadChangesNothing : Prop :=
  ∀ s : State,
    let low := fun x : BitVec 32 => BitVec.ofNat 16 (x.toNat % 65536)
    let high := fun x : BitVec 32 => BitVec.ofNat 16 (x.toNat / 65536)
    let map : List (Byte × Word) :=
      [(0x01, BitVec.ofNat 16 (8 * s.tvalid.toNat + 4 * s.mode.code + s.run.code)),
       (0x02, BitVec.ofNat 16 (256 * s.cause.code + s.kind.code)),
       (0x03, s.frow), (0x04, s.fcol), (0x05, s.result), (0x06, s.bps),
       (0x07, BitVec.ofNat 16 s.lossless.toNat), (0x08, s.height), (0x09, s.raww), (0x0A, s.visw),
       (0x0B, s.lmargin), (0x0C, s.split), (0x0D, s.csize), (0x0E, s.ver),
       (0x10, s.vseed0), (0x11, s.vseed1), (0x12, s.vseed2), (0x13, s.vseed3),
       (0x14, s.minReg), (0x15, s.maxReg), (0x16, s.row), (0x17, s.col),
       (0x18, s.vpred00), (0x19, s.vpred01), (0x1A, s.vpred10), (0x1B, s.vpred11),
       (0x1C, s.hpred0), (0x1D, s.hpred1),
       (0x1E, BitVec.ofNat 16 s.tsel.toNat), (0x1F, BitVec.ofNat 16 s.maxlen.toNat),
       (0x20, low s.bpByte), (0x21, high s.bpByte), (0x22, BitVec.ofNat 16 s.bpBit.toNat),
       (0x23, low s.srclen), (0x24, high s.srclen), (0x25, low s.metalen), (0x26, high s.metalen),
       (0x28, s.caddr)]
    (∀ e ∈ map, regRead e.1.toNat s = e.2) ∧
    (∀ addr : Byte, addr ≠ 0x29 → (∀ e ∈ map, e.1 ≠ addr) → regRead addr.toNat s = 0) ∧
    ∀ (addr : Byte) (rest : List HostAccess), s.hostIn = .read addr :: rest →
      (addr ≠ 0x29 →
        step s = .next { s with hostIn := rest, hostOut := s.hostOut ++ [regRead addr.toNat s] }) ∧
      (∀ v, addr = 0x29 → s.caddr.toNat ≤ 16384 → storeGet s.curve s.caddr.toNat = some v →
        step s = .next { s with hostIn := rest, hostOut := s.hostOut ++ [v] }) ∧
      (addr = 0x29 → (16384 < s.caddr.toNat ∨ storeGet s.curve s.caddr.toNat = none) →
        ∃ x, step s = .next { s with hostIn := rest, hostOut := s.hostOut ++ [x], draws := s.draws + 1 })

/-- A register write outside FAULT: to any address but those of the RW registers it is refused with BAD_ACCESS in every state
of RUN; to a RW register outside IDLE, with BAD_STATE (44_host_commands.md R230, 10_state.md R30, 60_exceptions.md R272). -/
def Obligations.RegisterWriteRefusals : Prop :=
  ∀ (s : State) (addr : Byte) (v : Word) (rest : List HostAccess), s.run ≠ .fault → addr ≠ 0 →
    s.hostIn = .write addr v :: rest →
    let readWrite : List Byte :=
      [0x06, 0x07, 0x08, 0x09, 0x0A, 0x0B, 0x0C, 0x0D, 0x0E, 0x10, 0x11, 0x12, 0x13, 0x15, 0x23, 0x24, 0x25, 0x26,
       0x28, 0x29]
    (addr ∉ readWrite → step s = .next (({ s with hostIn := rest } : State).raise .badAccess)) ∧
    (addr ∈ readWrite → s.run ≠ .idle →
      step s = .next (({ s with hostIn := rest } : State).raise .badState))

/-! ### Whole-machine rules -/

/-- Every step from a state that meets the invariant leaves one that meets it (43_predictive.md R209 a; 10_state.md R28,
R33, R37, R38). Its clauses on DATA and META are the model's form of them (log entry 2); BP is bounded only while ACTIVE
(log entry 8). -/
def Obligations.StepKeepsInvariant : Prop :=
  ∀ s t : State, inv s = true → step s = .next t → inv t = true

/-- From a state that meets the invariant no step stops: every access is served (60_exceptions.md R270: a fault of the
spec is a next state; the model's only stop, log entry 5, is out of reach). -/
def Obligations.StepNeverStops : Prop :=
  ∀ s : State, inv s = true → ∃ t, step s = .next t

/-- No step writes HROM or the parameters, DATA or META (10_state.md R36, R40; 20_memory.md R64). -/
def Obligations.InputsAreNeverWritten : Prop :=
  ∀ s t : State, step s = .next t → t.cfg = s.cfg ∧ t.data = s.data ∧ t.metaMem = s.metaMem

/-- No step takes a raster event back, reset among them (60_exceptions.md R274, 70_reset_and_hazards.md R301). -/
def Obligations.RasterOnlyGrows : Prop :=
  ∀ s t : State, step s = .next t → ∃ events, t.raster = s.raster ++ events

/-- The raster events of one STEP or RUN come in row-major order, at distinct places inside the image and the window, each at
a pixel from the position before it up to, and not at, the position after it, so that two steps never write one place
(20_memory.md R65, R76; 43_predictive.md R200, R209 d). -/
def Obligations.RasterEventsInOrder : Prop :=
  ∀ s t : State, inv s = true → s.run = .active → (exec .step s = .next t ∨ exec .run s = .next t) →
    ∃ events, t.raster = s.raster ++ events ∧ events.Pairwise RasterEvent.before ∧
      ∀ e ∈ events,
        (s.row.toNat < e.row.toNat ∨ (e.row = s.row ∧ s.col.toNat ≤ e.vcol.toNat + s.lmargin.toNat)) ∧
        (e.row.toNat < t.row.toNat ∨ (e.row = t.row ∧ e.vcol.toNat + s.lmargin.toNat < t.col.toNat)) ∧
        e.row.toNat < s.height.toNat ∧ e.vcol.toNat + s.lmargin.toNat < s.raww.toNat ∧ e.vcol.toNat < s.visw.toNat

/-- While ACTIVE no step but a reset changes the configuration, the lengths or the curve (44_host_commands.md R230,
42_curve.md R176). -/
def Obligations.ActiveKeepsConfiguration : Prop :=
  ∀ s t : State, s.run = .active → nextIsReset s = false → step s = .next t →
    t.bps = s.bps ∧ t.lossless = s.lossless ∧ t.height = s.height ∧ t.raww = s.raww ∧ t.visw = s.visw ∧
    t.lmargin = s.lmargin ∧ t.split = s.split ∧ t.csize = s.csize ∧ t.ver = s.ver ∧ t.vseed0 = s.vseed0 ∧
    t.vseed1 = s.vseed1 ∧ t.vseed2 = s.vseed2 ∧ t.vseed3 = s.vseed3 ∧ t.srclen = s.srclen ∧
    t.metalen = s.metalen ∧ t.caddr = s.caddr ∧ t.curve = s.curve

/-- While ACTIVE, a step (a whole RUN among them) leaves MODE, MIN and MAX as they are, or makes the split transition's
change once: NORMAL to SPLIT, MAX + 32, MIN 16 (43_predictive.md R203, R209 b; 42_curve.md R176). -/
def Obligations.SplitAtMostOnce : Prop :=
  ∀ s t : State, s.run = .active → nextIsReset s = false → step s = .next t →
    (t.mode = s.mode ∧ t.minReg = s.minReg ∧ t.maxReg = s.maxReg) ∨
    (s.mode = .normal ∧ t.mode = .split ∧ t.minReg = 16 ∧ t.maxReg = s.maxReg + 32)

/-- While ACTIVE, BP never moves backward but by a reset (43_predictive.md R208, R209 c). -/
def Obligations.BitPointerNeverGoesBack : Prop :=
  ∀ s t : State, inv s = true → s.run = .active → nextIsReset s = false → step s = .next t → bitPos s ≤ bitPos t

/-- A register access of the host (a read, or a write to an address other than CMD) changes no lane, no position, no mode,
no table, neither MIN nor RESULT, and writes no raster cell (10_state.md R22, R32 to R34, R37). -/
def Obligations.RegisterAccessKeepsWorkingState : Prop :=
  ∀ s t : State, nextIsRegisterAccess s = true → step s = .next t →
    t.vpred00 = s.vpred00 ∧ t.vpred01 = s.vpred01 ∧ t.vpred10 = s.vpred10 ∧ t.vpred11 = s.vpred11 ∧
    t.hpred0 = s.hpred0 ∧ t.hpred1 = s.hpred1 ∧ t.bpByte = s.bpByte ∧ t.bpBit = s.bpBit ∧ t.row = s.row ∧
    t.col = s.col ∧ t.mode = s.mode ∧ t.tvalid = s.tvalid ∧ t.tsel = s.tsel ∧ t.maxlen = s.maxlen ∧
    t.fill = s.fill ∧ t.hslot = s.hslot ∧ t.minReg = s.minReg ∧ t.result = s.result ∧ t.raster = s.raster

/-- With HROM as 41_huffman.md R147 asks, a hypothesis on the parameter: HBLD and START build every table, complete, and with
one of these tables held the fetch of a record, and HDEC, fault in no other way than DATA_EXHAUSTED (R145). -/
def Obligations.CompleteHromNeverFails : Prop :=
  ∀ s : State, HromComplete s.cfg.hrom →
    (∀ n : Byte, s.run = .idle → n.toNat ≤ 5 →
      ∃ t, exec (.hbld n) s = .next t ∧ t.run = .idle ∧ t.tvalid = true ∧ t.fill.toNat = 2 ^ t.maxlen.toNat) ∧
    (s.run = .idle → startRefused s = false →
      ∃ t, exec .start s = .next t ∧ t.run ≠ .fault ∧ t.tvalid = true ∧ t.fill.toNat = 2 ^ t.maxlen.toNat) ∧
    ∀ t : Fin 6, HoldsTable s.cfg.hrom[t] s →
      ∀ u, hdec s = .raised u ∨ fetchRecord s = .raised u → u.cause = .dataExhausted
end

