-- ==== Sys2Proof/Laws/Memory.lean ====
section
/-! SUPPORT. The laws of the sparse stores and of DATA and META: what a read sees after a write, and that every operation
keeps the canonical form. -/

namespace Sys2Proof.Machine

variable {β : Type}

/-! ### Reads after writes -/

theorem storeGet_storeSet (m : List (Nat × β)) (k k' : Nat) (v : β) :
    storeGet (storeSet m k v) k' = if k' = k then some v else storeGet m k' := by
  induction m with
  | nil =>
    by_cases h : k' = k
    · simp [storeSet, storeGet, h]
    · simp [storeSet, storeGet, h, Ne.symm h]
  | cons e rest ih =>
    obtain ⟨k0, v0⟩ := e
    unfold storeSet
    split
    · by_cases h : k' = k
      · simp [storeGet, h]
      · simp [storeGet, h, Ne.symm h]
    · split
      · subst_vars
        by_cases h : k' = k0
        · simp [storeGet, h]
        · simp [storeGet, h, Ne.symm h]
      · simp only [storeGet, ih]
        by_cases h0 : k0 = k'
        · subst h0
          simp [Ne.symm ‹¬k = k0›]
        · simp [h0]

theorem storeGet_append (m m' : List (Nat × β)) (k : Nat) :
    storeGet (m ++ m') k = (storeGet m k).or (storeGet m' k) := by
  induction m with
  | nil => simp [storeGet]
  | cons e rest ih =>
    obtain ⟨k0, v0⟩ := e
    by_cases h : k0 = k <;> simp [storeGet, h, ih]

theorem storeGet_filter (m : List (Nat × β)) (p : Nat → Bool) (k : Nat) :
    storeGet (m.filter fun e => p e.1) k = if p k then storeGet m k else none := by
  induction m with
  | nil => simp [storeGet]
  | cons e rest ih =>
    obtain ⟨k0, v0⟩ := e
    by_cases hp : p k0
    · rw [List.filter_cons_of_pos (by simpa using hp)]
      by_cases h : k0 = k
      · subst h; simp [storeGet, hp]
      · simp [storeGet, h, ih]
    · rw [List.filter_cons_of_neg (by simpa using hp), ih]
      by_cases h : k0 = k
      · subst h; simp [hp]
      · simp [storeGet, h]

theorem storeGet_map_range' (n p k : Nat) (v : β) :
    storeGet ((List.range' p n).map fun q => (q, v)) k = if p ≤ k ∧ k < p + n then some v else none := by
  induction n generalizing p with
  | zero => simp [storeGet]
  | succ n ih =>
    rw [List.range'_succ, List.map_cons, storeGet, ih]
    split_ifs <;> first | rfl | omega

theorem storeGet_storeSetRange (m : List (Nat × β)) (p n k : Nat) (v : β) :
    storeGet (storeSetRange m p n v) k = if p ≤ k ∧ k < p + n then some v else storeGet m k := by
  unfold storeSetRange
  rw [storeGet_append, storeGet_append, storeGet_map_range',
    storeGet_filter m (fun q => decide (q < p)), storeGet_filter m (fun q => decide (p + n ≤ q))]
  by_cases h1 : k < p
  · have h3 : ¬(p ≤ k ∧ k < p + n) := by omega
    have h4 : ¬(p + n ≤ k) := by omega
    simp [h1, h3, h4]
  · by_cases h2 : p + n ≤ k
    · have h3 : ¬(p ≤ k ∧ k < p + n) := by omega
      simp [h1, h2, h3]
    · have h3 : p ≤ k ∧ k < p + n := by omega
      simp [h1, h3]

theorem storeGet_storeClearBelow (m : List (Nat × β)) (n k : Nat) :
    storeGet (storeClearBelow m n) k = if n ≤ k then storeGet m k else none := by
  have h := storeGet_filter m (fun q => decide (n ≤ q)) k
  simpa [storeClearBelow] using h

/-! ### The canonical form of a store -/

theorem storeRising_iff_pairwise (m : List (Nat × β)) :
    storeRising m = true ↔ m.Pairwise fun a b => a.1 < b.1 := by
  induction m with
  | nil => simp [storeRising]
  | cons e rest ih =>
    cases rest with
    | nil => simp [storeRising]
    | cons e' rest' =>
      rw [storeRising, Bool.and_eq_true, decide_eq_true_iff, ih, List.pairwise_cons (a := e)]
      constructor
      · rintro ⟨h, hp⟩
        refine ⟨fun x hx => ?_, hp⟩
        rcases List.mem_cons.mp hx with rfl | hx
        · exact h
        · exact Nat.lt_trans h ((List.pairwise_cons.mp hp).1 x hx)
      · rintro ⟨h, hp⟩
        exact ⟨h e' (List.mem_cons_self ..), hp⟩

/-- What is in a store after a set is the new entry or an old one with another key. -/
theorem mem_storeSet {m : List (Nat × β)} {k : Nat} {v : β} {e : Nat × β} (h : e ∈ storeSet m k v) :
    e = (k, v) ∨ e ∈ m := by
  induction m with
  | nil => simpa [storeSet] using h
  | cons e0 rest ih =>
    obtain ⟨k0, v0⟩ := e0
    unfold storeSet at h
    split at h
    · simpa using h
    · split at h
      · rcases List.mem_cons.mp h with h | h
        · exact .inl h
        · exact .inr (List.mem_cons_of_mem _ h)
      · rcases List.mem_cons.mp h with h | h
        · exact .inr (h ▸ List.mem_cons_self ..)
        · exact (ih h).imp_right (List.mem_cons_of_mem _)

theorem storeSet_pairwise {m : List (Nat × β)} (h : m.Pairwise fun a b => a.1 < b.1) (k : Nat) (v : β) :
    (storeSet m k v).Pairwise fun a b => a.1 < b.1 := by
  induction m with
  | nil => simp [storeSet]
  | cons e rest ih =>
    obtain ⟨k0, v0⟩ := e
    obtain ⟨h1, h2⟩ := List.pairwise_cons.mp h
    unfold storeSet
    split
    · refine List.pairwise_cons.mpr ⟨fun x hx => ?_, h⟩
      rcases List.mem_cons.mp hx with rfl | hx
      · assumption
      · exact Nat.lt_trans ‹k < k0› (h1 x hx)
    · split
      · subst_vars
        exact List.pairwise_cons.mpr ⟨h1, h2⟩
      · refine List.pairwise_cons.mpr ⟨fun x hx => ?_, ih h2⟩
        rcases mem_storeSet hx with rfl | hx
        · simp only; omega
        · exact h1 x hx

theorem storeRising_storeSet {m : List (Nat × β)} (h : storeRising m = true) (k : Nat) (v : β) :
    storeRising (storeSet m k v) = true :=
  (storeRising_iff_pairwise _).mpr (storeSet_pairwise ((storeRising_iff_pairwise m).mp h) k v)

/-- Erasing takes entries away and adds none. -/
theorem storeErase_sublist (m : List (Nat × β)) (k : Nat) : (storeErase m k).Sublist m := by
  induction m with
  | nil => simp [storeErase]
  | cons e rest ih =>
    obtain ⟨k0, v0⟩ := e
    unfold storeErase
    split
    · exact List.sublist_cons_self ..
    · exact ih.cons_cons _

theorem storeRising_storeErase {m : List (Nat × β)} (h : storeRising m = true) (k : Nat) :
    storeRising (storeErase m k) = true :=
  (storeRising_iff_pairwise _).mpr (((storeRising_iff_pairwise m).mp h).sublist (storeErase_sublist m k))

theorem storeRising_storeClearBelow {m : List (Nat × β)} (h : storeRising m = true) (n : Nat) :
    storeRising (storeClearBelow m n) = true :=
  (storeRising_iff_pairwise _).mpr (((storeRising_iff_pairwise m).mp h).sublist List.filter_sublist)

theorem storeRising_storeSetRange {m : List (Nat × β)} (h : storeRising m = true) (p n : Nat) (v : β) :
    storeRising (storeSetRange m p n v) = true := by
  rw [storeRising_iff_pairwise] at h ⊢
  unfold storeSetRange
  rw [List.pairwise_append, List.pairwise_append]
  refine ⟨⟨h.sublist List.filter_sublist, ?_, ?_⟩, h.sublist List.filter_sublist, ?_⟩
  · rw [List.pairwise_map]
    exact List.pairwise_lt_range'
  · intro a ha b hb
    simp only [List.mem_filter, decide_eq_true_eq] at ha
    simp only [List.mem_map, List.mem_range'_1] at hb
    obtain ⟨q, hq, rfl⟩ := hb
    simp only; omega
  · intro a ha b hb
    simp only [List.mem_filter, decide_eq_true_eq] at hb
    simp only [List.mem_append, List.mem_filter, decide_eq_true_eq, List.mem_map, List.mem_range'_1] at ha
    rcases ha with ha | ⟨q, hq, rfl⟩
    · omega
    · simp only; omega

/-- An entry of a rising store is what a read finds at its key. -/
theorem storeGet_of_mem {m : List (Nat × β)} (h : m.Pairwise fun a b => a.1 < b.1) {k : Nat} {v : β}
    (hm : (k, v) ∈ m) : storeGet m k = some v := by
  induction m with
  | nil => simp at hm
  | cons e rest ih =>
    obtain ⟨k0, v0⟩ := e
    obtain ⟨h1, h2⟩ := List.pairwise_cons.mp h
    rcases List.mem_cons.mp hm with hm | hm
    · cases hm; simp [storeGet]
    · have : k0 < k := h1 _ hm
      simp [storeGet, Nat.ne_of_lt this, ih h2 hm]

/-- What a read finds is an entry. -/
theorem mem_of_storeGet {m : List (Nat × β)} {k : Nat} {v : β} (h : storeGet m k = some v) : (k, v) ∈ m := by
  induction m with
  | nil => simp [storeGet] at h
  | cons e rest ih =>
    obtain ⟨k0, v0⟩ := e
    unfold storeGet at h
    split at h
    · cases h; subst_vars; exact List.mem_cons_self ..
    · exact List.mem_cons_of_mem _ (ih h)

theorem storeGet_storeErase {m : List (Nat × β)} (h : m.Pairwise fun a b => a.1 < b.1) (k k' : Nat) :
    storeGet (storeErase m k) k' = if k' = k then none else storeGet m k' := by
  induction m with
  | nil => simp [storeErase, storeGet]
  | cons e rest ih =>
    obtain ⟨k0, v0⟩ := e
    obtain ⟨h1, h2⟩ := List.pairwise_cons.mp h
    unfold storeErase
    split
    · subst_vars
      by_cases hk : k' = k0
      · subst hk
        rw [if_pos rfl]
        cases hg : storeGet rest k' with
        | none => rfl
        | some v => exact absurd (h1 _ (mem_of_storeGet hg)) (Nat.lt_irrefl _)
      · simp [storeGet, hk, Ne.symm hk]
    · simp only [storeGet, ih h2]
      by_cases hk : k0 = k'
      · subst hk; simp [‹¬k0 = k›]
      · simp [hk]

/-! ### DATA and META -/

theorem Memory.wf_iff (m : List Host.Cell) :
    Memory.wf m = true ↔ (m.Pairwise fun a b => a.1 < b.1) ∧ ∀ e ∈ m, e.2 ≠ 0 := by
  simp [Memory.wf, storeRising_iff_pairwise]

theorem memRead_memWrite {m : List Host.Cell} (h : Memory.wf m = true) (a a' : Nat) (b : Byte) :
    memRead (memWrite m a b) a' = if a' = a then b else memRead m a' := by
  obtain ⟨hp, -⟩ := (Memory.wf_iff m).mp h
  unfold memRead memWrite
  by_cases hb : b = 0
  · rw [if_pos hb, storeGet_storeErase hp]
    by_cases hk : a' = a <;> simp [hk, hb]
  · rw [if_neg hb, storeGet_storeSet]
    by_cases hk : a' = a <;> simp [hk]

/-- Writing a byte keeps the canonical form. -/
theorem memWrite_wf {m : List Host.Cell} (h : Memory.wf m = true) (a : Nat) (b : Byte) :
    Memory.wf (memWrite m a b) = true := by
  obtain ⟨hp, hz⟩ := (Memory.wf_iff m).mp h
  rw [Memory.wf_iff]
  unfold memWrite
  split
  · exact ⟨hp.sublist (storeErase_sublist m a), fun e he => hz e ((storeErase_sublist m a).subset he)⟩
  · refine ⟨storeSet_pairwise hp a b, fun e he => ?_⟩
    rcases mem_storeSet he with rfl | he
    · assumption
    · exact hz e he

/-- Writing bytes in a row keeps the canonical form. -/
theorem memWriteBytes_wf {m : List Host.Cell} (h : Memory.wf m = true) (a : Nat) (bytes : List Byte) :
    Memory.wf (memWriteBytes m a bytes) = true := by
  induction bytes generalizing m a with
  | nil => exact h
  | cons b rest ih => exact ih (memWrite_wf h a b) (a + 1)

/-- The memories of the machine after reset are in canonical form. -/
theorem reset_memories_wf :
    Memory.wf State.reset.data = true ∧ Memory.wf State.reset.metaMem = true :=
  ⟨rfl, rfl⟩

/-- Two memories in canonical form that read the same everywhere are equal. -/
theorem Memory.ext_of_wf {m m' : List Host.Cell} (h : Memory.wf m = true) (h' : Memory.wf m' = true)
    (hr : ∀ a, memRead m a = memRead m' a) : m = m' := by
  obtain ⟨hp, hz⟩ := (Memory.wf_iff m).mp h
  obtain ⟨hp', hz'⟩ := (Memory.wf_iff m').mp h'
  have key : ∀ {x y : List Host.Cell}, (x.Pairwise fun a b => a.1 < b.1) → (∀ e ∈ x, e.2 ≠ 0) →
      (∀ a, memRead x a = memRead y a) → ∀ e ∈ x, e ∈ y := by
    intro x y hx hxz hxy e he
    have h1 := storeGet_of_mem hx he
    have h2 := hxy e.1
    unfold memRead at h2
    rw [h1] at h2
    cases hy : storeGet y e.1 with
    | none => rw [hy] at h2; exact absurd h2 (hxz e he)
    | some b => rw [hy] at h2; simp only at h2; rw [← h2] at hy; exact mem_of_storeGet hy
  have hnd : ∀ {x : List Host.Cell}, (x.Pairwise fun a b => a.1 < b.1) → x.Nodup := by
    intro x hx
    exact hx.imp fun hab heq => by subst heq; exact Nat.lt_irrefl _ hab
  have hperm : m.Perm m' :=
    (List.perm_ext_iff_of_nodup (hnd hp) (hnd hp')).mpr fun e =>
      ⟨key hp hz hr e, key hp' hz' (fun a => (hr a).symm) e⟩
  exact hperm.eq_of_pairwise (fun a b _ _ hab hba => absurd hab (Nat.lt_asymm hba)) hp hp'

end Sys2Proof.Machine
end

