-- ==== Sys2Proof/Laws/State.lean ====
section
/-! SUPPORT. One lemma for each field and each named update of the state: what the update does to that field. -/

namespace Sys2Proof.Machine

/-! ### `State.raise` -/

@[simp] theorem State.raise_vpred00 (s : State) (c : FaultCause) : (s.raise c).vpred00 = s.vpred00 := rfl
@[simp] theorem State.raise_vpred01 (s : State) (c : FaultCause) : (s.raise c).vpred01 = s.vpred01 := rfl
@[simp] theorem State.raise_vpred10 (s : State) (c : FaultCause) : (s.raise c).vpred10 = s.vpred10 := rfl
@[simp] theorem State.raise_vpred11 (s : State) (c : FaultCause) : (s.raise c).vpred11 = s.vpred11 := rfl
@[simp] theorem State.raise_hpred0 (s : State) (c : FaultCause) : (s.raise c).hpred0 = s.hpred0 := rfl
@[simp] theorem State.raise_hpred1 (s : State) (c : FaultCause) : (s.raise c).hpred1 = s.hpred1 := rfl
@[simp] theorem State.raise_bpByte (s : State) (c : FaultCause) : (s.raise c).bpByte = s.bpByte := rfl
@[simp] theorem State.raise_bpBit (s : State) (c : FaultCause) : (s.raise c).bpBit = s.bpBit := rfl
@[simp] theorem State.raise_row (s : State) (c : FaultCause) : (s.raise c).row = s.row := rfl
@[simp] theorem State.raise_col (s : State) (c : FaultCause) : (s.raise c).col = s.col := rfl
@[simp] theorem State.raise_mode (s : State) (c : FaultCause) : (s.raise c).mode = s.mode := rfl
@[simp] theorem State.raise_run (s : State) (c : FaultCause) : (s.raise c).run = .fault := rfl
@[simp] theorem State.raise_tvalid (s : State) (c : FaultCause) : (s.raise c).tvalid = s.tvalid := rfl
@[simp] theorem State.raise_kind (s : State) (c : FaultCause) : (s.raise c).kind = c.kind := rfl
@[simp] theorem State.raise_cause (s : State) (c : FaultCause) : (s.raise c).cause = c := rfl
@[simp] theorem State.raise_frow (s : State) (c : FaultCause) : (s.raise c).frow = s.row := rfl
@[simp] theorem State.raise_fcol (s : State) (c : FaultCause) : (s.raise c).fcol = s.col := rfl
@[simp] theorem State.raise_result (s : State) (c : FaultCause) : (s.raise c).result = s.result := rfl
@[simp] theorem State.raise_bps (s : State) (c : FaultCause) : (s.raise c).bps = s.bps := rfl
@[simp] theorem State.raise_lossless (s : State) (c : FaultCause) : (s.raise c).lossless = s.lossless := rfl
@[simp] theorem State.raise_height (s : State) (c : FaultCause) : (s.raise c).height = s.height := rfl
@[simp] theorem State.raise_raww (s : State) (c : FaultCause) : (s.raise c).raww = s.raww := rfl
@[simp] theorem State.raise_visw (s : State) (c : FaultCause) : (s.raise c).visw = s.visw := rfl
@[simp] theorem State.raise_lmargin (s : State) (c : FaultCause) : (s.raise c).lmargin = s.lmargin := rfl
@[simp] theorem State.raise_split (s : State) (c : FaultCause) : (s.raise c).split = s.split := rfl
@[simp] theorem State.raise_csize (s : State) (c : FaultCause) : (s.raise c).csize = s.csize := rfl
@[simp] theorem State.raise_ver (s : State) (c : FaultCause) : (s.raise c).ver = s.ver := rfl
@[simp] theorem State.raise_vseed0 (s : State) (c : FaultCause) : (s.raise c).vseed0 = s.vseed0 := rfl
@[simp] theorem State.raise_vseed1 (s : State) (c : FaultCause) : (s.raise c).vseed1 = s.vseed1 := rfl
@[simp] theorem State.raise_vseed2 (s : State) (c : FaultCause) : (s.raise c).vseed2 = s.vseed2 := rfl
@[simp] theorem State.raise_vseed3 (s : State) (c : FaultCause) : (s.raise c).vseed3 = s.vseed3 := rfl
@[simp] theorem State.raise_minReg (s : State) (c : FaultCause) : (s.raise c).minReg = s.minReg := rfl
@[simp] theorem State.raise_maxReg (s : State) (c : FaultCause) : (s.raise c).maxReg = s.maxReg := rfl
@[simp] theorem State.raise_tsel (s : State) (c : FaultCause) : (s.raise c).tsel = s.tsel := rfl
@[simp] theorem State.raise_maxlen (s : State) (c : FaultCause) : (s.raise c).maxlen = s.maxlen := rfl
@[simp] theorem State.raise_fill (s : State) (c : FaultCause) : (s.raise c).fill = s.fill := rfl
@[simp] theorem State.raise_srclen (s : State) (c : FaultCause) : (s.raise c).srclen = s.srclen := rfl
@[simp] theorem State.raise_metalen (s : State) (c : FaultCause) : (s.raise c).metalen = s.metalen := rfl
@[simp] theorem State.raise_caddr (s : State) (c : FaultCause) : (s.raise c).caddr = s.caddr := rfl
@[simp] theorem State.raise_hslot (s : State) (c : FaultCause) : (s.raise c).hslot = s.hslot := rfl
@[simp] theorem State.raise_curve (s : State) (c : FaultCause) : (s.raise c).curve = s.curve := rfl
@[simp] theorem State.raise_cfg (s : State) (c : FaultCause) : (s.raise c).cfg = s.cfg := rfl
@[simp] theorem State.raise_data (s : State) (c : FaultCause) : (s.raise c).data = s.data := rfl
@[simp] theorem State.raise_metaMem (s : State) (c : FaultCause) : (s.raise c).metaMem = s.metaMem := rfl
@[simp] theorem State.raise_raster (s : State) (c : FaultCause) : (s.raise c).raster = s.raster := rfl
@[simp] theorem State.raise_hostIn (s : State) (c : FaultCause) : (s.raise c).hostIn = s.hostIn := rfl
@[simp] theorem State.raise_hostOut (s : State) (c : FaultCause) : (s.raise c).hostOut = s.hostOut := rfl
@[simp] theorem State.raise_draws (s : State) (c : FaultCause) : (s.raise c).draws = s.draws := rfl

/-! ### `State.setBp` -/

@[simp] theorem State.setBp_vpred00 (s : State) (b : BitVec 32) (i : BitVec 3) : (s.setBp b i).vpred00 = s.vpred00 := rfl
@[simp] theorem State.setBp_vpred01 (s : State) (b : BitVec 32) (i : BitVec 3) : (s.setBp b i).vpred01 = s.vpred01 := rfl
@[simp] theorem State.setBp_vpred10 (s : State) (b : BitVec 32) (i : BitVec 3) : (s.setBp b i).vpred10 = s.vpred10 := rfl
@[simp] theorem State.setBp_vpred11 (s : State) (b : BitVec 32) (i : BitVec 3) : (s.setBp b i).vpred11 = s.vpred11 := rfl
@[simp] theorem State.setBp_hpred0 (s : State) (b : BitVec 32) (i : BitVec 3) : (s.setBp b i).hpred0 = s.hpred0 := rfl
@[simp] theorem State.setBp_hpred1 (s : State) (b : BitVec 32) (i : BitVec 3) : (s.setBp b i).hpred1 = s.hpred1 := rfl
@[simp] theorem State.setBp_bpByte (s : State) (b : BitVec 32) (i : BitVec 3) : (s.setBp b i).bpByte = b := rfl
@[simp] theorem State.setBp_bpBit (s : State) (b : BitVec 32) (i : BitVec 3) : (s.setBp b i).bpBit = i := rfl
@[simp] theorem State.setBp_row (s : State) (b : BitVec 32) (i : BitVec 3) : (s.setBp b i).row = s.row := rfl
@[simp] theorem State.setBp_col (s : State) (b : BitVec 32) (i : BitVec 3) : (s.setBp b i).col = s.col := rfl
@[simp] theorem State.setBp_mode (s : State) (b : BitVec 32) (i : BitVec 3) : (s.setBp b i).mode = s.mode := rfl
@[simp] theorem State.setBp_run (s : State) (b : BitVec 32) (i : BitVec 3) : (s.setBp b i).run = s.run := rfl
@[simp] theorem State.setBp_tvalid (s : State) (b : BitVec 32) (i : BitVec 3) : (s.setBp b i).tvalid = s.tvalid := rfl
@[simp] theorem State.setBp_kind (s : State) (b : BitVec 32) (i : BitVec 3) : (s.setBp b i).kind = s.kind := rfl
@[simp] theorem State.setBp_cause (s : State) (b : BitVec 32) (i : BitVec 3) : (s.setBp b i).cause = s.cause := rfl
@[simp] theorem State.setBp_frow (s : State) (b : BitVec 32) (i : BitVec 3) : (s.setBp b i).frow = s.frow := rfl
@[simp] theorem State.setBp_fcol (s : State) (b : BitVec 32) (i : BitVec 3) : (s.setBp b i).fcol = s.fcol := rfl
@[simp] theorem State.setBp_result (s : State) (b : BitVec 32) (i : BitVec 3) : (s.setBp b i).result = s.result := rfl
@[simp] theorem State.setBp_bps (s : State) (b : BitVec 32) (i : BitVec 3) : (s.setBp b i).bps = s.bps := rfl
@[simp] theorem State.setBp_lossless (s : State) (b : BitVec 32) (i : BitVec 3) : (s.setBp b i).lossless = s.lossless := rfl
@[simp] theorem State.setBp_height (s : State) (b : BitVec 32) (i : BitVec 3) : (s.setBp b i).height = s.height := rfl
@[simp] theorem State.setBp_raww (s : State) (b : BitVec 32) (i : BitVec 3) : (s.setBp b i).raww = s.raww := rfl
@[simp] theorem State.setBp_visw (s : State) (b : BitVec 32) (i : BitVec 3) : (s.setBp b i).visw = s.visw := rfl
@[simp] theorem State.setBp_lmargin (s : State) (b : BitVec 32) (i : BitVec 3) : (s.setBp b i).lmargin = s.lmargin := rfl
@[simp] theorem State.setBp_split (s : State) (b : BitVec 32) (i : BitVec 3) : (s.setBp b i).split = s.split := rfl
@[simp] theorem State.setBp_csize (s : State) (b : BitVec 32) (i : BitVec 3) : (s.setBp b i).csize = s.csize := rfl
@[simp] theorem State.setBp_ver (s : State) (b : BitVec 32) (i : BitVec 3) : (s.setBp b i).ver = s.ver := rfl
@[simp] theorem State.setBp_vseed0 (s : State) (b : BitVec 32) (i : BitVec 3) : (s.setBp b i).vseed0 = s.vseed0 := rfl
@[simp] theorem State.setBp_vseed1 (s : State) (b : BitVec 32) (i : BitVec 3) : (s.setBp b i).vseed1 = s.vseed1 := rfl
@[simp] theorem State.setBp_vseed2 (s : State) (b : BitVec 32) (i : BitVec 3) : (s.setBp b i).vseed2 = s.vseed2 := rfl
@[simp] theorem State.setBp_vseed3 (s : State) (b : BitVec 32) (i : BitVec 3) : (s.setBp b i).vseed3 = s.vseed3 := rfl
@[simp] theorem State.setBp_minReg (s : State) (b : BitVec 32) (i : BitVec 3) : (s.setBp b i).minReg = s.minReg := rfl
@[simp] theorem State.setBp_maxReg (s : State) (b : BitVec 32) (i : BitVec 3) : (s.setBp b i).maxReg = s.maxReg := rfl
@[simp] theorem State.setBp_tsel (s : State) (b : BitVec 32) (i : BitVec 3) : (s.setBp b i).tsel = s.tsel := rfl
@[simp] theorem State.setBp_maxlen (s : State) (b : BitVec 32) (i : BitVec 3) : (s.setBp b i).maxlen = s.maxlen := rfl
@[simp] theorem State.setBp_fill (s : State) (b : BitVec 32) (i : BitVec 3) : (s.setBp b i).fill = s.fill := rfl
@[simp] theorem State.setBp_srclen (s : State) (b : BitVec 32) (i : BitVec 3) : (s.setBp b i).srclen = s.srclen := rfl
@[simp] theorem State.setBp_metalen (s : State) (b : BitVec 32) (i : BitVec 3) : (s.setBp b i).metalen = s.metalen := rfl
@[simp] theorem State.setBp_caddr (s : State) (b : BitVec 32) (i : BitVec 3) : (s.setBp b i).caddr = s.caddr := rfl
@[simp] theorem State.setBp_hslot (s : State) (b : BitVec 32) (i : BitVec 3) : (s.setBp b i).hslot = s.hslot := rfl
@[simp] theorem State.setBp_curve (s : State) (b : BitVec 32) (i : BitVec 3) : (s.setBp b i).curve = s.curve := rfl
@[simp] theorem State.setBp_cfg (s : State) (b : BitVec 32) (i : BitVec 3) : (s.setBp b i).cfg = s.cfg := rfl
@[simp] theorem State.setBp_data (s : State) (b : BitVec 32) (i : BitVec 3) : (s.setBp b i).data = s.data := rfl
@[simp] theorem State.setBp_metaMem (s : State) (b : BitVec 32) (i : BitVec 3) : (s.setBp b i).metaMem = s.metaMem := rfl
@[simp] theorem State.setBp_raster (s : State) (b : BitVec 32) (i : BitVec 3) : (s.setBp b i).raster = s.raster := rfl
@[simp] theorem State.setBp_hostIn (s : State) (b : BitVec 32) (i : BitVec 3) : (s.setBp b i).hostIn = s.hostIn := rfl
@[simp] theorem State.setBp_hostOut (s : State) (b : BitVec 32) (i : BitVec 3) : (s.setBp b i).hostOut = s.hostOut := rfl
@[simp] theorem State.setBp_draws (s : State) (b : BitVec 32) (i : BitVec 3) : (s.setBp b i).draws = s.draws := rfl

/-! ### `State.setBitPos` -/

@[simp] theorem State.setBitPos_vpred00 (s : State) (p : Nat) : (s.setBitPos p).vpred00 = s.vpred00 := rfl
@[simp] theorem State.setBitPos_vpred01 (s : State) (p : Nat) : (s.setBitPos p).vpred01 = s.vpred01 := rfl
@[simp] theorem State.setBitPos_vpred10 (s : State) (p : Nat) : (s.setBitPos p).vpred10 = s.vpred10 := rfl
@[simp] theorem State.setBitPos_vpred11 (s : State) (p : Nat) : (s.setBitPos p).vpred11 = s.vpred11 := rfl
@[simp] theorem State.setBitPos_hpred0 (s : State) (p : Nat) : (s.setBitPos p).hpred0 = s.hpred0 := rfl
@[simp] theorem State.setBitPos_hpred1 (s : State) (p : Nat) : (s.setBitPos p).hpred1 = s.hpred1 := rfl
@[simp] theorem State.setBitPos_bpByte (s : State) (p : Nat) : (s.setBitPos p).bpByte = BitVec.ofNat 32 (p / 8) := rfl
@[simp] theorem State.setBitPos_bpBit (s : State) (p : Nat) : (s.setBitPos p).bpBit = BitVec.ofNat 3 (p % 8) := rfl
@[simp] theorem State.setBitPos_row (s : State) (p : Nat) : (s.setBitPos p).row = s.row := rfl
@[simp] theorem State.setBitPos_col (s : State) (p : Nat) : (s.setBitPos p).col = s.col := rfl
@[simp] theorem State.setBitPos_mode (s : State) (p : Nat) : (s.setBitPos p).mode = s.mode := rfl
@[simp] theorem State.setBitPos_run (s : State) (p : Nat) : (s.setBitPos p).run = s.run := rfl
@[simp] theorem State.setBitPos_tvalid (s : State) (p : Nat) : (s.setBitPos p).tvalid = s.tvalid := rfl
@[simp] theorem State.setBitPos_kind (s : State) (p : Nat) : (s.setBitPos p).kind = s.kind := rfl
@[simp] theorem State.setBitPos_cause (s : State) (p : Nat) : (s.setBitPos p).cause = s.cause := rfl
@[simp] theorem State.setBitPos_frow (s : State) (p : Nat) : (s.setBitPos p).frow = s.frow := rfl
@[simp] theorem State.setBitPos_fcol (s : State) (p : Nat) : (s.setBitPos p).fcol = s.fcol := rfl
@[simp] theorem State.setBitPos_result (s : State) (p : Nat) : (s.setBitPos p).result = s.result := rfl
@[simp] theorem State.setBitPos_bps (s : State) (p : Nat) : (s.setBitPos p).bps = s.bps := rfl
@[simp] theorem State.setBitPos_lossless (s : State) (p : Nat) : (s.setBitPos p).lossless = s.lossless := rfl
@[simp] theorem State.setBitPos_height (s : State) (p : Nat) : (s.setBitPos p).height = s.height := rfl
@[simp] theorem State.setBitPos_raww (s : State) (p : Nat) : (s.setBitPos p).raww = s.raww := rfl
@[simp] theorem State.setBitPos_visw (s : State) (p : Nat) : (s.setBitPos p).visw = s.visw := rfl
@[simp] theorem State.setBitPos_lmargin (s : State) (p : Nat) : (s.setBitPos p).lmargin = s.lmargin := rfl
@[simp] theorem State.setBitPos_split (s : State) (p : Nat) : (s.setBitPos p).split = s.split := rfl
@[simp] theorem State.setBitPos_csize (s : State) (p : Nat) : (s.setBitPos p).csize = s.csize := rfl
@[simp] theorem State.setBitPos_ver (s : State) (p : Nat) : (s.setBitPos p).ver = s.ver := rfl
@[simp] theorem State.setBitPos_vseed0 (s : State) (p : Nat) : (s.setBitPos p).vseed0 = s.vseed0 := rfl
@[simp] theorem State.setBitPos_vseed1 (s : State) (p : Nat) : (s.setBitPos p).vseed1 = s.vseed1 := rfl
@[simp] theorem State.setBitPos_vseed2 (s : State) (p : Nat) : (s.setBitPos p).vseed2 = s.vseed2 := rfl
@[simp] theorem State.setBitPos_vseed3 (s : State) (p : Nat) : (s.setBitPos p).vseed3 = s.vseed3 := rfl
@[simp] theorem State.setBitPos_minReg (s : State) (p : Nat) : (s.setBitPos p).minReg = s.minReg := rfl
@[simp] theorem State.setBitPos_maxReg (s : State) (p : Nat) : (s.setBitPos p).maxReg = s.maxReg := rfl
@[simp] theorem State.setBitPos_tsel (s : State) (p : Nat) : (s.setBitPos p).tsel = s.tsel := rfl
@[simp] theorem State.setBitPos_maxlen (s : State) (p : Nat) : (s.setBitPos p).maxlen = s.maxlen := rfl
@[simp] theorem State.setBitPos_fill (s : State) (p : Nat) : (s.setBitPos p).fill = s.fill := rfl
@[simp] theorem State.setBitPos_srclen (s : State) (p : Nat) : (s.setBitPos p).srclen = s.srclen := rfl
@[simp] theorem State.setBitPos_metalen (s : State) (p : Nat) : (s.setBitPos p).metalen = s.metalen := rfl
@[simp] theorem State.setBitPos_caddr (s : State) (p : Nat) : (s.setBitPos p).caddr = s.caddr := rfl
@[simp] theorem State.setBitPos_hslot (s : State) (p : Nat) : (s.setBitPos p).hslot = s.hslot := rfl
@[simp] theorem State.setBitPos_curve (s : State) (p : Nat) : (s.setBitPos p).curve = s.curve := rfl
@[simp] theorem State.setBitPos_cfg (s : State) (p : Nat) : (s.setBitPos p).cfg = s.cfg := rfl
@[simp] theorem State.setBitPos_data (s : State) (p : Nat) : (s.setBitPos p).data = s.data := rfl
@[simp] theorem State.setBitPos_metaMem (s : State) (p : Nat) : (s.setBitPos p).metaMem = s.metaMem := rfl
@[simp] theorem State.setBitPos_raster (s : State) (p : Nat) : (s.setBitPos p).raster = s.raster := rfl
@[simp] theorem State.setBitPos_hostIn (s : State) (p : Nat) : (s.setBitPos p).hostIn = s.hostIn := rfl
@[simp] theorem State.setBitPos_hostOut (s : State) (p : Nat) : (s.setBitPos p).hostOut = s.hostOut := rfl
@[simp] theorem State.setBitPos_draws (s : State) (p : Nat) : (s.setBitPos p).draws = s.draws := rfl

/-! ### `curveWrite` -/

@[simp] theorem curveWrite_vpred00 (i : Nat) (v : Word) (s : State) : (curveWrite i v s).vpred00 = s.vpred00 := rfl
@[simp] theorem curveWrite_vpred01 (i : Nat) (v : Word) (s : State) : (curveWrite i v s).vpred01 = s.vpred01 := rfl
@[simp] theorem curveWrite_vpred10 (i : Nat) (v : Word) (s : State) : (curveWrite i v s).vpred10 = s.vpred10 := rfl
@[simp] theorem curveWrite_vpred11 (i : Nat) (v : Word) (s : State) : (curveWrite i v s).vpred11 = s.vpred11 := rfl
@[simp] theorem curveWrite_hpred0 (i : Nat) (v : Word) (s : State) : (curveWrite i v s).hpred0 = s.hpred0 := rfl
@[simp] theorem curveWrite_hpred1 (i : Nat) (v : Word) (s : State) : (curveWrite i v s).hpred1 = s.hpred1 := rfl
@[simp] theorem curveWrite_bpByte (i : Nat) (v : Word) (s : State) : (curveWrite i v s).bpByte = s.bpByte := rfl
@[simp] theorem curveWrite_bpBit (i : Nat) (v : Word) (s : State) : (curveWrite i v s).bpBit = s.bpBit := rfl
@[simp] theorem curveWrite_row (i : Nat) (v : Word) (s : State) : (curveWrite i v s).row = s.row := rfl
@[simp] theorem curveWrite_col (i : Nat) (v : Word) (s : State) : (curveWrite i v s).col = s.col := rfl
@[simp] theorem curveWrite_mode (i : Nat) (v : Word) (s : State) : (curveWrite i v s).mode = s.mode := rfl
@[simp] theorem curveWrite_run (i : Nat) (v : Word) (s : State) : (curveWrite i v s).run = s.run := rfl
@[simp] theorem curveWrite_tvalid (i : Nat) (v : Word) (s : State) : (curveWrite i v s).tvalid = s.tvalid := rfl
@[simp] theorem curveWrite_kind (i : Nat) (v : Word) (s : State) : (curveWrite i v s).kind = s.kind := rfl
@[simp] theorem curveWrite_cause (i : Nat) (v : Word) (s : State) : (curveWrite i v s).cause = s.cause := rfl
@[simp] theorem curveWrite_frow (i : Nat) (v : Word) (s : State) : (curveWrite i v s).frow = s.frow := rfl
@[simp] theorem curveWrite_fcol (i : Nat) (v : Word) (s : State) : (curveWrite i v s).fcol = s.fcol := rfl
@[simp] theorem curveWrite_result (i : Nat) (v : Word) (s : State) : (curveWrite i v s).result = s.result := rfl
@[simp] theorem curveWrite_bps (i : Nat) (v : Word) (s : State) : (curveWrite i v s).bps = s.bps := rfl
@[simp] theorem curveWrite_lossless (i : Nat) (v : Word) (s : State) : (curveWrite i v s).lossless = s.lossless := rfl
@[simp] theorem curveWrite_height (i : Nat) (v : Word) (s : State) : (curveWrite i v s).height = s.height := rfl
@[simp] theorem curveWrite_raww (i : Nat) (v : Word) (s : State) : (curveWrite i v s).raww = s.raww := rfl
@[simp] theorem curveWrite_visw (i : Nat) (v : Word) (s : State) : (curveWrite i v s).visw = s.visw := rfl
@[simp] theorem curveWrite_lmargin (i : Nat) (v : Word) (s : State) : (curveWrite i v s).lmargin = s.lmargin := rfl
@[simp] theorem curveWrite_split (i : Nat) (v : Word) (s : State) : (curveWrite i v s).split = s.split := rfl
@[simp] theorem curveWrite_csize (i : Nat) (v : Word) (s : State) : (curveWrite i v s).csize = s.csize := rfl
@[simp] theorem curveWrite_ver (i : Nat) (v : Word) (s : State) : (curveWrite i v s).ver = s.ver := rfl
@[simp] theorem curveWrite_vseed0 (i : Nat) (v : Word) (s : State) : (curveWrite i v s).vseed0 = s.vseed0 := rfl
@[simp] theorem curveWrite_vseed1 (i : Nat) (v : Word) (s : State) : (curveWrite i v s).vseed1 = s.vseed1 := rfl
@[simp] theorem curveWrite_vseed2 (i : Nat) (v : Word) (s : State) : (curveWrite i v s).vseed2 = s.vseed2 := rfl
@[simp] theorem curveWrite_vseed3 (i : Nat) (v : Word) (s : State) : (curveWrite i v s).vseed3 = s.vseed3 := rfl
@[simp] theorem curveWrite_minReg (i : Nat) (v : Word) (s : State) : (curveWrite i v s).minReg = s.minReg := rfl
@[simp] theorem curveWrite_maxReg (i : Nat) (v : Word) (s : State) : (curveWrite i v s).maxReg = s.maxReg := rfl
@[simp] theorem curveWrite_tsel (i : Nat) (v : Word) (s : State) : (curveWrite i v s).tsel = s.tsel := rfl
@[simp] theorem curveWrite_maxlen (i : Nat) (v : Word) (s : State) : (curveWrite i v s).maxlen = s.maxlen := rfl
@[simp] theorem curveWrite_fill (i : Nat) (v : Word) (s : State) : (curveWrite i v s).fill = s.fill := rfl
@[simp] theorem curveWrite_srclen (i : Nat) (v : Word) (s : State) : (curveWrite i v s).srclen = s.srclen := rfl
@[simp] theorem curveWrite_metalen (i : Nat) (v : Word) (s : State) : (curveWrite i v s).metalen = s.metalen := rfl
@[simp] theorem curveWrite_caddr (i : Nat) (v : Word) (s : State) : (curveWrite i v s).caddr = s.caddr := rfl
@[simp] theorem curveWrite_hslot (i : Nat) (v : Word) (s : State) : (curveWrite i v s).hslot = s.hslot := rfl
@[simp] theorem curveWrite_curve (i : Nat) (v : Word) (s : State) : (curveWrite i v s).curve = storeSet s.curve i v := rfl
@[simp] theorem curveWrite_cfg (i : Nat) (v : Word) (s : State) : (curveWrite i v s).cfg = s.cfg := rfl
@[simp] theorem curveWrite_data (i : Nat) (v : Word) (s : State) : (curveWrite i v s).data = s.data := rfl
@[simp] theorem curveWrite_metaMem (i : Nat) (v : Word) (s : State) : (curveWrite i v s).metaMem = s.metaMem := rfl
@[simp] theorem curveWrite_raster (i : Nat) (v : Word) (s : State) : (curveWrite i v s).raster = s.raster := rfl
@[simp] theorem curveWrite_hostIn (i : Nat) (v : Word) (s : State) : (curveWrite i v s).hostIn = s.hostIn := rfl
@[simp] theorem curveWrite_hostOut (i : Nat) (v : Word) (s : State) : (curveWrite i v s).hostOut = s.hostOut := rfl
@[simp] theorem curveWrite_draws (i : Nat) (v : Word) (s : State) : (curveWrite i v s).draws = s.draws := rfl

/-! ### `curveClear` -/

@[simp] theorem curveClear_vpred00 (s : State) : (curveClear s).vpred00 = s.vpred00 := rfl
@[simp] theorem curveClear_vpred01 (s : State) : (curveClear s).vpred01 = s.vpred01 := rfl
@[simp] theorem curveClear_vpred10 (s : State) : (curveClear s).vpred10 = s.vpred10 := rfl
@[simp] theorem curveClear_vpred11 (s : State) : (curveClear s).vpred11 = s.vpred11 := rfl
@[simp] theorem curveClear_hpred0 (s : State) : (curveClear s).hpred0 = s.hpred0 := rfl
@[simp] theorem curveClear_hpred1 (s : State) : (curveClear s).hpred1 = s.hpred1 := rfl
@[simp] theorem curveClear_bpByte (s : State) : (curveClear s).bpByte = s.bpByte := rfl
@[simp] theorem curveClear_bpBit (s : State) : (curveClear s).bpBit = s.bpBit := rfl
@[simp] theorem curveClear_row (s : State) : (curveClear s).row = s.row := rfl
@[simp] theorem curveClear_col (s : State) : (curveClear s).col = s.col := rfl
@[simp] theorem curveClear_mode (s : State) : (curveClear s).mode = s.mode := rfl
@[simp] theorem curveClear_run (s : State) : (curveClear s).run = s.run := rfl
@[simp] theorem curveClear_tvalid (s : State) : (curveClear s).tvalid = s.tvalid := rfl
@[simp] theorem curveClear_kind (s : State) : (curveClear s).kind = s.kind := rfl
@[simp] theorem curveClear_cause (s : State) : (curveClear s).cause = s.cause := rfl
@[simp] theorem curveClear_frow (s : State) : (curveClear s).frow = s.frow := rfl
@[simp] theorem curveClear_fcol (s : State) : (curveClear s).fcol = s.fcol := rfl
@[simp] theorem curveClear_result (s : State) : (curveClear s).result = s.result := rfl
@[simp] theorem curveClear_bps (s : State) : (curveClear s).bps = s.bps := rfl
@[simp] theorem curveClear_lossless (s : State) : (curveClear s).lossless = s.lossless := rfl
@[simp] theorem curveClear_height (s : State) : (curveClear s).height = s.height := rfl
@[simp] theorem curveClear_raww (s : State) : (curveClear s).raww = s.raww := rfl
@[simp] theorem curveClear_visw (s : State) : (curveClear s).visw = s.visw := rfl
@[simp] theorem curveClear_lmargin (s : State) : (curveClear s).lmargin = s.lmargin := rfl
@[simp] theorem curveClear_split (s : State) : (curveClear s).split = s.split := rfl
@[simp] theorem curveClear_csize (s : State) : (curveClear s).csize = s.csize := rfl
@[simp] theorem curveClear_ver (s : State) : (curveClear s).ver = s.ver := rfl
@[simp] theorem curveClear_vseed0 (s : State) : (curveClear s).vseed0 = s.vseed0 := rfl
@[simp] theorem curveClear_vseed1 (s : State) : (curveClear s).vseed1 = s.vseed1 := rfl
@[simp] theorem curveClear_vseed2 (s : State) : (curveClear s).vseed2 = s.vseed2 := rfl
@[simp] theorem curveClear_vseed3 (s : State) : (curveClear s).vseed3 = s.vseed3 := rfl
@[simp] theorem curveClear_minReg (s : State) : (curveClear s).minReg = s.minReg := rfl
@[simp] theorem curveClear_maxReg (s : State) : (curveClear s).maxReg = s.maxReg := rfl
@[simp] theorem curveClear_tsel (s : State) : (curveClear s).tsel = s.tsel := rfl
@[simp] theorem curveClear_maxlen (s : State) : (curveClear s).maxlen = s.maxlen := rfl
@[simp] theorem curveClear_fill (s : State) : (curveClear s).fill = s.fill := rfl
@[simp] theorem curveClear_srclen (s : State) : (curveClear s).srclen = s.srclen := rfl
@[simp] theorem curveClear_metalen (s : State) : (curveClear s).metalen = s.metalen := rfl
@[simp] theorem curveClear_caddr (s : State) : (curveClear s).caddr = s.caddr := rfl
@[simp] theorem curveClear_hslot (s : State) : (curveClear s).hslot = s.hslot := rfl
@[simp] theorem curveClear_curve (s : State) : (curveClear s).curve = [] := rfl
@[simp] theorem curveClear_cfg (s : State) : (curveClear s).cfg = s.cfg := rfl
@[simp] theorem curveClear_data (s : State) : (curveClear s).data = s.data := rfl
@[simp] theorem curveClear_metaMem (s : State) : (curveClear s).metaMem = s.metaMem := rfl
@[simp] theorem curveClear_raster (s : State) : (curveClear s).raster = s.raster := rfl
@[simp] theorem curveClear_hostIn (s : State) : (curveClear s).hostIn = s.hostIn := rfl
@[simp] theorem curveClear_hostOut (s : State) : (curveClear s).hostOut = s.hostOut := rfl
@[simp] theorem curveClear_draws (s : State) : (curveClear s).draws = s.draws := rfl

/-! ### `rasterWrite` -/

@[simp] theorem rasterWrite_vpred00 (row vcol v : Word) (s : State) : (rasterWrite row vcol v s).vpred00 = s.vpred00 := rfl
@[simp] theorem rasterWrite_vpred01 (row vcol v : Word) (s : State) : (rasterWrite row vcol v s).vpred01 = s.vpred01 := rfl
@[simp] theorem rasterWrite_vpred10 (row vcol v : Word) (s : State) : (rasterWrite row vcol v s).vpred10 = s.vpred10 := rfl
@[simp] theorem rasterWrite_vpred11 (row vcol v : Word) (s : State) : (rasterWrite row vcol v s).vpred11 = s.vpred11 := rfl
@[simp] theorem rasterWrite_hpred0 (row vcol v : Word) (s : State) : (rasterWrite row vcol v s).hpred0 = s.hpred0 := rfl
@[simp] theorem rasterWrite_hpred1 (row vcol v : Word) (s : State) : (rasterWrite row vcol v s).hpred1 = s.hpred1 := rfl
@[simp] theorem rasterWrite_bpByte (row vcol v : Word) (s : State) : (rasterWrite row vcol v s).bpByte = s.bpByte := rfl
@[simp] theorem rasterWrite_bpBit (row vcol v : Word) (s : State) : (rasterWrite row vcol v s).bpBit = s.bpBit := rfl
@[simp] theorem rasterWrite_row (row vcol v : Word) (s : State) : (rasterWrite row vcol v s).row = s.row := rfl
@[simp] theorem rasterWrite_col (row vcol v : Word) (s : State) : (rasterWrite row vcol v s).col = s.col := rfl
@[simp] theorem rasterWrite_mode (row vcol v : Word) (s : State) : (rasterWrite row vcol v s).mode = s.mode := rfl
@[simp] theorem rasterWrite_run (row vcol v : Word) (s : State) : (rasterWrite row vcol v s).run = s.run := rfl
@[simp] theorem rasterWrite_tvalid (row vcol v : Word) (s : State) : (rasterWrite row vcol v s).tvalid = s.tvalid := rfl
@[simp] theorem rasterWrite_kind (row vcol v : Word) (s : State) : (rasterWrite row vcol v s).kind = s.kind := rfl
@[simp] theorem rasterWrite_cause (row vcol v : Word) (s : State) : (rasterWrite row vcol v s).cause = s.cause := rfl
@[simp] theorem rasterWrite_frow (row vcol v : Word) (s : State) : (rasterWrite row vcol v s).frow = s.frow := rfl
@[simp] theorem rasterWrite_fcol (row vcol v : Word) (s : State) : (rasterWrite row vcol v s).fcol = s.fcol := rfl
@[simp] theorem rasterWrite_result (row vcol v : Word) (s : State) : (rasterWrite row vcol v s).result = s.result := rfl
@[simp] theorem rasterWrite_bps (row vcol v : Word) (s : State) : (rasterWrite row vcol v s).bps = s.bps := rfl
@[simp] theorem rasterWrite_lossless (row vcol v : Word) (s : State) : (rasterWrite row vcol v s).lossless = s.lossless := rfl
@[simp] theorem rasterWrite_height (row vcol v : Word) (s : State) : (rasterWrite row vcol v s).height = s.height := rfl
@[simp] theorem rasterWrite_raww (row vcol v : Word) (s : State) : (rasterWrite row vcol v s).raww = s.raww := rfl
@[simp] theorem rasterWrite_visw (row vcol v : Word) (s : State) : (rasterWrite row vcol v s).visw = s.visw := rfl
@[simp] theorem rasterWrite_lmargin (row vcol v : Word) (s : State) : (rasterWrite row vcol v s).lmargin = s.lmargin := rfl
@[simp] theorem rasterWrite_split (row vcol v : Word) (s : State) : (rasterWrite row vcol v s).split = s.split := rfl
@[simp] theorem rasterWrite_csize (row vcol v : Word) (s : State) : (rasterWrite row vcol v s).csize = s.csize := rfl
@[simp] theorem rasterWrite_ver (row vcol v : Word) (s : State) : (rasterWrite row vcol v s).ver = s.ver := rfl
@[simp] theorem rasterWrite_vseed0 (row vcol v : Word) (s : State) : (rasterWrite row vcol v s).vseed0 = s.vseed0 := rfl
@[simp] theorem rasterWrite_vseed1 (row vcol v : Word) (s : State) : (rasterWrite row vcol v s).vseed1 = s.vseed1 := rfl
@[simp] theorem rasterWrite_vseed2 (row vcol v : Word) (s : State) : (rasterWrite row vcol v s).vseed2 = s.vseed2 := rfl
@[simp] theorem rasterWrite_vseed3 (row vcol v : Word) (s : State) : (rasterWrite row vcol v s).vseed3 = s.vseed3 := rfl
@[simp] theorem rasterWrite_minReg (row vcol v : Word) (s : State) : (rasterWrite row vcol v s).minReg = s.minReg := rfl
@[simp] theorem rasterWrite_maxReg (row vcol v : Word) (s : State) : (rasterWrite row vcol v s).maxReg = s.maxReg := rfl
@[simp] theorem rasterWrite_tsel (row vcol v : Word) (s : State) : (rasterWrite row vcol v s).tsel = s.tsel := rfl
@[simp] theorem rasterWrite_maxlen (row vcol v : Word) (s : State) : (rasterWrite row vcol v s).maxlen = s.maxlen := rfl
@[simp] theorem rasterWrite_fill (row vcol v : Word) (s : State) : (rasterWrite row vcol v s).fill = s.fill := rfl
@[simp] theorem rasterWrite_srclen (row vcol v : Word) (s : State) : (rasterWrite row vcol v s).srclen = s.srclen := rfl
@[simp] theorem rasterWrite_metalen (row vcol v : Word) (s : State) : (rasterWrite row vcol v s).metalen = s.metalen := rfl
@[simp] theorem rasterWrite_caddr (row vcol v : Word) (s : State) : (rasterWrite row vcol v s).caddr = s.caddr := rfl
@[simp] theorem rasterWrite_hslot (row vcol v : Word) (s : State) : (rasterWrite row vcol v s).hslot = s.hslot := rfl
@[simp] theorem rasterWrite_curve (row vcol v : Word) (s : State) : (rasterWrite row vcol v s).curve = s.curve := rfl
@[simp] theorem rasterWrite_cfg (row vcol v : Word) (s : State) : (rasterWrite row vcol v s).cfg = s.cfg := rfl
@[simp] theorem rasterWrite_data (row vcol v : Word) (s : State) : (rasterWrite row vcol v s).data = s.data := rfl
@[simp] theorem rasterWrite_metaMem (row vcol v : Word) (s : State) : (rasterWrite row vcol v s).metaMem = s.metaMem := rfl
@[simp] theorem rasterWrite_raster (row vcol v : Word) (s : State) : (rasterWrite row vcol v s).raster = s.raster ++ [⟨row, vcol, v⟩] := rfl
@[simp] theorem rasterWrite_hostIn (row vcol v : Word) (s : State) : (rasterWrite row vcol v s).hostIn = s.hostIn := rfl
@[simp] theorem rasterWrite_hostOut (row vcol v : Word) (s : State) : (rasterWrite row vcol v s).hostOut = s.hostOut := rfl
@[simp] theorem rasterWrite_draws (row vcol v : Word) (s : State) : (rasterWrite row vcol v s).draws = s.draws := rfl

/-! ### `State.setVpred` -/

@[simp] theorem State.setVpred_vpred00 (s : State) (r c : Bool) (v : Word) : (s.setVpred r c v).vpred00 = if r = false ∧ c = false then v else s.vpred00 := by
  cases r <;> cases c <;> rfl
@[simp] theorem State.setVpred_vpred01 (s : State) (r c : Bool) (v : Word) : (s.setVpred r c v).vpred01 = if r = false ∧ c = true then v else s.vpred01 := by
  cases r <;> cases c <;> rfl
@[simp] theorem State.setVpred_vpred10 (s : State) (r c : Bool) (v : Word) : (s.setVpred r c v).vpred10 = if r = true ∧ c = false then v else s.vpred10 := by
  cases r <;> cases c <;> rfl
@[simp] theorem State.setVpred_vpred11 (s : State) (r c : Bool) (v : Word) : (s.setVpred r c v).vpred11 = if r = true ∧ c = true then v else s.vpred11 := by
  cases r <;> cases c <;> rfl
@[simp] theorem State.setVpred_hpred0 (s : State) (r c : Bool) (v : Word) : (s.setVpred r c v).hpred0 = s.hpred0 := by
  cases r <;> cases c <;> rfl
@[simp] theorem State.setVpred_hpred1 (s : State) (r c : Bool) (v : Word) : (s.setVpred r c v).hpred1 = s.hpred1 := by
  cases r <;> cases c <;> rfl
@[simp] theorem State.setVpred_bpByte (s : State) (r c : Bool) (v : Word) : (s.setVpred r c v).bpByte = s.bpByte := by
  cases r <;> cases c <;> rfl
@[simp] theorem State.setVpred_bpBit (s : State) (r c : Bool) (v : Word) : (s.setVpred r c v).bpBit = s.bpBit := by
  cases r <;> cases c <;> rfl
@[simp] theorem State.setVpred_row (s : State) (r c : Bool) (v : Word) : (s.setVpred r c v).row = s.row := by
  cases r <;> cases c <;> rfl
@[simp] theorem State.setVpred_col (s : State) (r c : Bool) (v : Word) : (s.setVpred r c v).col = s.col := by
  cases r <;> cases c <;> rfl
@[simp] theorem State.setVpred_mode (s : State) (r c : Bool) (v : Word) : (s.setVpred r c v).mode = s.mode := by
  cases r <;> cases c <;> rfl
@[simp] theorem State.setVpred_run (s : State) (r c : Bool) (v : Word) : (s.setVpred r c v).run = s.run := by
  cases r <;> cases c <;> rfl
@[simp] theorem State.setVpred_tvalid (s : State) (r c : Bool) (v : Word) : (s.setVpred r c v).tvalid = s.tvalid := by
  cases r <;> cases c <;> rfl
@[simp] theorem State.setVpred_kind (s : State) (r c : Bool) (v : Word) : (s.setVpred r c v).kind = s.kind := by
  cases r <;> cases c <;> rfl
@[simp] theorem State.setVpred_cause (s : State) (r c : Bool) (v : Word) : (s.setVpred r c v).cause = s.cause := by
  cases r <;> cases c <;> rfl
@[simp] theorem State.setVpred_frow (s : State) (r c : Bool) (v : Word) : (s.setVpred r c v).frow = s.frow := by
  cases r <;> cases c <;> rfl
@[simp] theorem State.setVpred_fcol (s : State) (r c : Bool) (v : Word) : (s.setVpred r c v).fcol = s.fcol := by
  cases r <;> cases c <;> rfl
@[simp] theorem State.setVpred_result (s : State) (r c : Bool) (v : Word) : (s.setVpred r c v).result = s.result := by
  cases r <;> cases c <;> rfl
@[simp] theorem State.setVpred_bps (s : State) (r c : Bool) (v : Word) : (s.setVpred r c v).bps = s.bps := by
  cases r <;> cases c <;> rfl
@[simp] theorem State.setVpred_lossless (s : State) (r c : Bool) (v : Word) : (s.setVpred r c v).lossless = s.lossless := by
  cases r <;> cases c <;> rfl
@[simp] theorem State.setVpred_height (s : State) (r c : Bool) (v : Word) : (s.setVpred r c v).height = s.height := by
  cases r <;> cases c <;> rfl
@[simp] theorem State.setVpred_raww (s : State) (r c : Bool) (v : Word) : (s.setVpred r c v).raww = s.raww := by
  cases r <;> cases c <;> rfl
@[simp] theorem State.setVpred_visw (s : State) (r c : Bool) (v : Word) : (s.setVpred r c v).visw = s.visw := by
  cases r <;> cases c <;> rfl
@[simp] theorem State.setVpred_lmargin (s : State) (r c : Bool) (v : Word) : (s.setVpred r c v).lmargin = s.lmargin := by
  cases r <;> cases c <;> rfl
@[simp] theorem State.setVpred_split (s : State) (r c : Bool) (v : Word) : (s.setVpred r c v).split = s.split := by
  cases r <;> cases c <;> rfl
@[simp] theorem State.setVpred_csize (s : State) (r c : Bool) (v : Word) : (s.setVpred r c v).csize = s.csize := by
  cases r <;> cases c <;> rfl
@[simp] theorem State.setVpred_ver (s : State) (r c : Bool) (v : Word) : (s.setVpred r c v).ver = s.ver := by
  cases r <;> cases c <;> rfl
@[simp] theorem State.setVpred_vseed0 (s : State) (r c : Bool) (v : Word) : (s.setVpred r c v).vseed0 = s.vseed0 := by
  cases r <;> cases c <;> rfl
@[simp] theorem State.setVpred_vseed1 (s : State) (r c : Bool) (v : Word) : (s.setVpred r c v).vseed1 = s.vseed1 := by
  cases r <;> cases c <;> rfl
@[simp] theorem State.setVpred_vseed2 (s : State) (r c : Bool) (v : Word) : (s.setVpred r c v).vseed2 = s.vseed2 := by
  cases r <;> cases c <;> rfl
@[simp] theorem State.setVpred_vseed3 (s : State) (r c : Bool) (v : Word) : (s.setVpred r c v).vseed3 = s.vseed3 := by
  cases r <;> cases c <;> rfl
@[simp] theorem State.setVpred_minReg (s : State) (r c : Bool) (v : Word) : (s.setVpred r c v).minReg = s.minReg := by
  cases r <;> cases c <;> rfl
@[simp] theorem State.setVpred_maxReg (s : State) (r c : Bool) (v : Word) : (s.setVpred r c v).maxReg = s.maxReg := by
  cases r <;> cases c <;> rfl
@[simp] theorem State.setVpred_tsel (s : State) (r c : Bool) (v : Word) : (s.setVpred r c v).tsel = s.tsel := by
  cases r <;> cases c <;> rfl
@[simp] theorem State.setVpred_maxlen (s : State) (r c : Bool) (v : Word) : (s.setVpred r c v).maxlen = s.maxlen := by
  cases r <;> cases c <;> rfl
@[simp] theorem State.setVpred_fill (s : State) (r c : Bool) (v : Word) : (s.setVpred r c v).fill = s.fill := by
  cases r <;> cases c <;> rfl
@[simp] theorem State.setVpred_srclen (s : State) (r c : Bool) (v : Word) : (s.setVpred r c v).srclen = s.srclen := by
  cases r <;> cases c <;> rfl
@[simp] theorem State.setVpred_metalen (s : State) (r c : Bool) (v : Word) : (s.setVpred r c v).metalen = s.metalen := by
  cases r <;> cases c <;> rfl
@[simp] theorem State.setVpred_caddr (s : State) (r c : Bool) (v : Word) : (s.setVpred r c v).caddr = s.caddr := by
  cases r <;> cases c <;> rfl
@[simp] theorem State.setVpred_hslot (s : State) (r c : Bool) (v : Word) : (s.setVpred r c v).hslot = s.hslot := by
  cases r <;> cases c <;> rfl
@[simp] theorem State.setVpred_curve (s : State) (r c : Bool) (v : Word) : (s.setVpred r c v).curve = s.curve := by
  cases r <;> cases c <;> rfl
@[simp] theorem State.setVpred_cfg (s : State) (r c : Bool) (v : Word) : (s.setVpred r c v).cfg = s.cfg := by
  cases r <;> cases c <;> rfl
@[simp] theorem State.setVpred_data (s : State) (r c : Bool) (v : Word) : (s.setVpred r c v).data = s.data := by
  cases r <;> cases c <;> rfl
@[simp] theorem State.setVpred_metaMem (s : State) (r c : Bool) (v : Word) : (s.setVpred r c v).metaMem = s.metaMem := by
  cases r <;> cases c <;> rfl
@[simp] theorem State.setVpred_raster (s : State) (r c : Bool) (v : Word) : (s.setVpred r c v).raster = s.raster := by
  cases r <;> cases c <;> rfl
@[simp] theorem State.setVpred_hostIn (s : State) (r c : Bool) (v : Word) : (s.setVpred r c v).hostIn = s.hostIn := by
  cases r <;> cases c <;> rfl
@[simp] theorem State.setVpred_hostOut (s : State) (r c : Bool) (v : Word) : (s.setVpred r c v).hostOut = s.hostOut := by
  cases r <;> cases c <;> rfl
@[simp] theorem State.setVpred_draws (s : State) (r c : Bool) (v : Word) : (s.setVpred r c v).draws = s.draws := by
  cases r <;> cases c <;> rfl

/-! ### `State.setHpred` -/

@[simp] theorem State.setHpred_vpred00 (s : State) (k : Bool) (v : Word) : (s.setHpred k v).vpred00 = s.vpred00 := by
  cases k <;> rfl
@[simp] theorem State.setHpred_vpred01 (s : State) (k : Bool) (v : Word) : (s.setHpred k v).vpred01 = s.vpred01 := by
  cases k <;> rfl
@[simp] theorem State.setHpred_vpred10 (s : State) (k : Bool) (v : Word) : (s.setHpred k v).vpred10 = s.vpred10 := by
  cases k <;> rfl
@[simp] theorem State.setHpred_vpred11 (s : State) (k : Bool) (v : Word) : (s.setHpred k v).vpred11 = s.vpred11 := by
  cases k <;> rfl
@[simp] theorem State.setHpred_hpred0 (s : State) (k : Bool) (v : Word) : (s.setHpred k v).hpred0 = if k = false then v else s.hpred0 := by
  cases k <;> rfl
@[simp] theorem State.setHpred_hpred1 (s : State) (k : Bool) (v : Word) : (s.setHpred k v).hpred1 = if k = true then v else s.hpred1 := by
  cases k <;> rfl
@[simp] theorem State.setHpred_bpByte (s : State) (k : Bool) (v : Word) : (s.setHpred k v).bpByte = s.bpByte := by
  cases k <;> rfl
@[simp] theorem State.setHpred_bpBit (s : State) (k : Bool) (v : Word) : (s.setHpred k v).bpBit = s.bpBit := by
  cases k <;> rfl
@[simp] theorem State.setHpred_row (s : State) (k : Bool) (v : Word) : (s.setHpred k v).row = s.row := by
  cases k <;> rfl
@[simp] theorem State.setHpred_col (s : State) (k : Bool) (v : Word) : (s.setHpred k v).col = s.col := by
  cases k <;> rfl
@[simp] theorem State.setHpred_mode (s : State) (k : Bool) (v : Word) : (s.setHpred k v).mode = s.mode := by
  cases k <;> rfl
@[simp] theorem State.setHpred_run (s : State) (k : Bool) (v : Word) : (s.setHpred k v).run = s.run := by
  cases k <;> rfl
@[simp] theorem State.setHpred_tvalid (s : State) (k : Bool) (v : Word) : (s.setHpred k v).tvalid = s.tvalid := by
  cases k <;> rfl
@[simp] theorem State.setHpred_kind (s : State) (k : Bool) (v : Word) : (s.setHpred k v).kind = s.kind := by
  cases k <;> rfl
@[simp] theorem State.setHpred_cause (s : State) (k : Bool) (v : Word) : (s.setHpred k v).cause = s.cause := by
  cases k <;> rfl
@[simp] theorem State.setHpred_frow (s : State) (k : Bool) (v : Word) : (s.setHpred k v).frow = s.frow := by
  cases k <;> rfl
@[simp] theorem State.setHpred_fcol (s : State) (k : Bool) (v : Word) : (s.setHpred k v).fcol = s.fcol := by
  cases k <;> rfl
@[simp] theorem State.setHpred_result (s : State) (k : Bool) (v : Word) : (s.setHpred k v).result = s.result := by
  cases k <;> rfl
@[simp] theorem State.setHpred_bps (s : State) (k : Bool) (v : Word) : (s.setHpred k v).bps = s.bps := by
  cases k <;> rfl
@[simp] theorem State.setHpred_lossless (s : State) (k : Bool) (v : Word) : (s.setHpred k v).lossless = s.lossless := by
  cases k <;> rfl
@[simp] theorem State.setHpred_height (s : State) (k : Bool) (v : Word) : (s.setHpred k v).height = s.height := by
  cases k <;> rfl
@[simp] theorem State.setHpred_raww (s : State) (k : Bool) (v : Word) : (s.setHpred k v).raww = s.raww := by
  cases k <;> rfl
@[simp] theorem State.setHpred_visw (s : State) (k : Bool) (v : Word) : (s.setHpred k v).visw = s.visw := by
  cases k <;> rfl
@[simp] theorem State.setHpred_lmargin (s : State) (k : Bool) (v : Word) : (s.setHpred k v).lmargin = s.lmargin := by
  cases k <;> rfl
@[simp] theorem State.setHpred_split (s : State) (k : Bool) (v : Word) : (s.setHpred k v).split = s.split := by
  cases k <;> rfl
@[simp] theorem State.setHpred_csize (s : State) (k : Bool) (v : Word) : (s.setHpred k v).csize = s.csize := by
  cases k <;> rfl
@[simp] theorem State.setHpred_ver (s : State) (k : Bool) (v : Word) : (s.setHpred k v).ver = s.ver := by
  cases k <;> rfl
@[simp] theorem State.setHpred_vseed0 (s : State) (k : Bool) (v : Word) : (s.setHpred k v).vseed0 = s.vseed0 := by
  cases k <;> rfl
@[simp] theorem State.setHpred_vseed1 (s : State) (k : Bool) (v : Word) : (s.setHpred k v).vseed1 = s.vseed1 := by
  cases k <;> rfl
@[simp] theorem State.setHpred_vseed2 (s : State) (k : Bool) (v : Word) : (s.setHpred k v).vseed2 = s.vseed2 := by
  cases k <;> rfl
@[simp] theorem State.setHpred_vseed3 (s : State) (k : Bool) (v : Word) : (s.setHpred k v).vseed3 = s.vseed3 := by
  cases k <;> rfl
@[simp] theorem State.setHpred_minReg (s : State) (k : Bool) (v : Word) : (s.setHpred k v).minReg = s.minReg := by
  cases k <;> rfl
@[simp] theorem State.setHpred_maxReg (s : State) (k : Bool) (v : Word) : (s.setHpred k v).maxReg = s.maxReg := by
  cases k <;> rfl
@[simp] theorem State.setHpred_tsel (s : State) (k : Bool) (v : Word) : (s.setHpred k v).tsel = s.tsel := by
  cases k <;> rfl
@[simp] theorem State.setHpred_maxlen (s : State) (k : Bool) (v : Word) : (s.setHpred k v).maxlen = s.maxlen := by
  cases k <;> rfl
@[simp] theorem State.setHpred_fill (s : State) (k : Bool) (v : Word) : (s.setHpred k v).fill = s.fill := by
  cases k <;> rfl
@[simp] theorem State.setHpred_srclen (s : State) (k : Bool) (v : Word) : (s.setHpred k v).srclen = s.srclen := by
  cases k <;> rfl
@[simp] theorem State.setHpred_metalen (s : State) (k : Bool) (v : Word) : (s.setHpred k v).metalen = s.metalen := by
  cases k <;> rfl
@[simp] theorem State.setHpred_caddr (s : State) (k : Bool) (v : Word) : (s.setHpred k v).caddr = s.caddr := by
  cases k <;> rfl
@[simp] theorem State.setHpred_hslot (s : State) (k : Bool) (v : Word) : (s.setHpred k v).hslot = s.hslot := by
  cases k <;> rfl
@[simp] theorem State.setHpred_curve (s : State) (k : Bool) (v : Word) : (s.setHpred k v).curve = s.curve := by
  cases k <;> rfl
@[simp] theorem State.setHpred_cfg (s : State) (k : Bool) (v : Word) : (s.setHpred k v).cfg = s.cfg := by
  cases k <;> rfl
@[simp] theorem State.setHpred_data (s : State) (k : Bool) (v : Word) : (s.setHpred k v).data = s.data := by
  cases k <;> rfl
@[simp] theorem State.setHpred_metaMem (s : State) (k : Bool) (v : Word) : (s.setHpred k v).metaMem = s.metaMem := by
  cases k <;> rfl
@[simp] theorem State.setHpred_raster (s : State) (k : Bool) (v : Word) : (s.setHpred k v).raster = s.raster := by
  cases k <;> rfl
@[simp] theorem State.setHpred_hostIn (s : State) (k : Bool) (v : Word) : (s.setHpred k v).hostIn = s.hostIn := by
  cases k <;> rfl
@[simp] theorem State.setHpred_hostOut (s : State) (k : Bool) (v : Word) : (s.setHpred k v).hostOut = s.hostOut := by
  cases k <;> rfl
@[simp] theorem State.setHpred_draws (s : State) (k : Bool) (v : Word) : (s.setHpred k v).draws = s.draws := by
  cases k <;> rfl

/-! ### `resetAll` -/

@[simp] theorem resetAll_vpred00 (s : State) : (resetAll s).vpred00 = State.reset.vpred00 := rfl
@[simp] theorem resetAll_vpred01 (s : State) : (resetAll s).vpred01 = State.reset.vpred01 := rfl
@[simp] theorem resetAll_vpred10 (s : State) : (resetAll s).vpred10 = State.reset.vpred10 := rfl
@[simp] theorem resetAll_vpred11 (s : State) : (resetAll s).vpred11 = State.reset.vpred11 := rfl
@[simp] theorem resetAll_hpred0 (s : State) : (resetAll s).hpred0 = State.reset.hpred0 := rfl
@[simp] theorem resetAll_hpred1 (s : State) : (resetAll s).hpred1 = State.reset.hpred1 := rfl
@[simp] theorem resetAll_bpByte (s : State) : (resetAll s).bpByte = State.reset.bpByte := rfl
@[simp] theorem resetAll_bpBit (s : State) : (resetAll s).bpBit = State.reset.bpBit := rfl
@[simp] theorem resetAll_row (s : State) : (resetAll s).row = State.reset.row := rfl
@[simp] theorem resetAll_col (s : State) : (resetAll s).col = State.reset.col := rfl
@[simp] theorem resetAll_mode (s : State) : (resetAll s).mode = State.reset.mode := rfl
@[simp] theorem resetAll_run (s : State) : (resetAll s).run = State.reset.run := rfl
@[simp] theorem resetAll_tvalid (s : State) : (resetAll s).tvalid = State.reset.tvalid := rfl
@[simp] theorem resetAll_kind (s : State) : (resetAll s).kind = State.reset.kind := rfl
@[simp] theorem resetAll_cause (s : State) : (resetAll s).cause = State.reset.cause := rfl
@[simp] theorem resetAll_frow (s : State) : (resetAll s).frow = State.reset.frow := rfl
@[simp] theorem resetAll_fcol (s : State) : (resetAll s).fcol = State.reset.fcol := rfl
@[simp] theorem resetAll_result (s : State) : (resetAll s).result = State.reset.result := rfl
@[simp] theorem resetAll_bps (s : State) : (resetAll s).bps = State.reset.bps := rfl
@[simp] theorem resetAll_lossless (s : State) : (resetAll s).lossless = State.reset.lossless := rfl
@[simp] theorem resetAll_height (s : State) : (resetAll s).height = State.reset.height := rfl
@[simp] theorem resetAll_raww (s : State) : (resetAll s).raww = State.reset.raww := rfl
@[simp] theorem resetAll_visw (s : State) : (resetAll s).visw = State.reset.visw := rfl
@[simp] theorem resetAll_lmargin (s : State) : (resetAll s).lmargin = State.reset.lmargin := rfl
@[simp] theorem resetAll_split (s : State) : (resetAll s).split = State.reset.split := rfl
@[simp] theorem resetAll_csize (s : State) : (resetAll s).csize = State.reset.csize := rfl
@[simp] theorem resetAll_ver (s : State) : (resetAll s).ver = State.reset.ver := rfl
@[simp] theorem resetAll_vseed0 (s : State) : (resetAll s).vseed0 = State.reset.vseed0 := rfl
@[simp] theorem resetAll_vseed1 (s : State) : (resetAll s).vseed1 = State.reset.vseed1 := rfl
@[simp] theorem resetAll_vseed2 (s : State) : (resetAll s).vseed2 = State.reset.vseed2 := rfl
@[simp] theorem resetAll_vseed3 (s : State) : (resetAll s).vseed3 = State.reset.vseed3 := rfl
@[simp] theorem resetAll_minReg (s : State) : (resetAll s).minReg = State.reset.minReg := rfl
@[simp] theorem resetAll_maxReg (s : State) : (resetAll s).maxReg = State.reset.maxReg := rfl
@[simp] theorem resetAll_tsel (s : State) : (resetAll s).tsel = State.reset.tsel := rfl
@[simp] theorem resetAll_maxlen (s : State) : (resetAll s).maxlen = State.reset.maxlen := rfl
@[simp] theorem resetAll_fill (s : State) : (resetAll s).fill = State.reset.fill := rfl
@[simp] theorem resetAll_srclen (s : State) : (resetAll s).srclen = State.reset.srclen := rfl
@[simp] theorem resetAll_metalen (s : State) : (resetAll s).metalen = State.reset.metalen := rfl
@[simp] theorem resetAll_caddr (s : State) : (resetAll s).caddr = State.reset.caddr := rfl
@[simp] theorem resetAll_hslot (s : State) : (resetAll s).hslot = State.reset.hslot := rfl
@[simp] theorem resetAll_curve (s : State) : (resetAll s).curve = State.reset.curve := rfl
@[simp] theorem resetAll_cfg (s : State) : (resetAll s).cfg = s.cfg := rfl
@[simp] theorem resetAll_data (s : State) : (resetAll s).data = s.data := rfl
@[simp] theorem resetAll_metaMem (s : State) : (resetAll s).metaMem = s.metaMem := rfl
@[simp] theorem resetAll_raster (s : State) : (resetAll s).raster = s.raster := rfl
@[simp] theorem resetAll_hostIn (s : State) : (resetAll s).hostIn = s.hostIn := rfl
@[simp] theorem resetAll_hostOut (s : State) : (resetAll s).hostOut = s.hostOut := rfl
@[simp] theorem resetAll_draws (s : State) : (resetAll s).draws = s.draws := rfl

/-! ### `brreset`, `emit` and `advance`, away from what they change -/

@[simp] theorem brreset_vpred00 (s : State) : (brreset s).vpred00 = s.vpred00 := by
  unfold brreset; split <;> rfl
@[simp] theorem brreset_vpred01 (s : State) : (brreset s).vpred01 = s.vpred01 := by
  unfold brreset; split <;> rfl
@[simp] theorem brreset_vpred10 (s : State) : (brreset s).vpred10 = s.vpred10 := by
  unfold brreset; split <;> rfl
@[simp] theorem brreset_vpred11 (s : State) : (brreset s).vpred11 = s.vpred11 := by
  unfold brreset; split <;> rfl
@[simp] theorem brreset_hpred0 (s : State) : (brreset s).hpred0 = s.hpred0 := by
  unfold brreset; split <;> rfl
@[simp] theorem brreset_hpred1 (s : State) : (brreset s).hpred1 = s.hpred1 := by
  unfold brreset; split <;> rfl
@[simp] theorem brreset_row (s : State) : (brreset s).row = s.row := by
  unfold brreset; split <;> rfl
@[simp] theorem brreset_col (s : State) : (brreset s).col = s.col := by
  unfold brreset; split <;> rfl
@[simp] theorem brreset_mode (s : State) : (brreset s).mode = s.mode := by
  unfold brreset; split <;> rfl
@[simp] theorem brreset_run (s : State) : (brreset s).run = s.run := by
  unfold brreset; split <;> rfl
@[simp] theorem brreset_tvalid (s : State) : (brreset s).tvalid = s.tvalid := by
  unfold brreset; split <;> rfl
@[simp] theorem brreset_kind (s : State) : (brreset s).kind = s.kind := by
  unfold brreset; split <;> rfl
@[simp] theorem brreset_cause (s : State) : (brreset s).cause = s.cause := by
  unfold brreset; split <;> rfl
@[simp] theorem brreset_frow (s : State) : (brreset s).frow = s.frow := by
  unfold brreset; split <;> rfl
@[simp] theorem brreset_fcol (s : State) : (brreset s).fcol = s.fcol := by
  unfold brreset; split <;> rfl
@[simp] theorem brreset_result (s : State) : (brreset s).result = s.result := by
  unfold brreset; split <;> rfl
@[simp] theorem brreset_bps (s : State) : (brreset s).bps = s.bps := by
  unfold brreset; split <;> rfl
@[simp] theorem brreset_lossless (s : State) : (brreset s).lossless = s.lossless := by
  unfold brreset; split <;> rfl
@[simp] theorem brreset_height (s : State) : (brreset s).height = s.height := by
  unfold brreset; split <;> rfl
@[simp] theorem brreset_raww (s : State) : (brreset s).raww = s.raww := by
  unfold brreset; split <;> rfl
@[simp] theorem brreset_visw (s : State) : (brreset s).visw = s.visw := by
  unfold brreset; split <;> rfl
@[simp] theorem brreset_lmargin (s : State) : (brreset s).lmargin = s.lmargin := by
  unfold brreset; split <;> rfl
@[simp] theorem brreset_split (s : State) : (brreset s).split = s.split := by
  unfold brreset; split <;> rfl
@[simp] theorem brreset_csize (s : State) : (brreset s).csize = s.csize := by
  unfold brreset; split <;> rfl
@[simp] theorem brreset_ver (s : State) : (brreset s).ver = s.ver := by
  unfold brreset; split <;> rfl
@[simp] theorem brreset_vseed0 (s : State) : (brreset s).vseed0 = s.vseed0 := by
  unfold brreset; split <;> rfl
@[simp] theorem brreset_vseed1 (s : State) : (brreset s).vseed1 = s.vseed1 := by
  unfold brreset; split <;> rfl
@[simp] theorem brreset_vseed2 (s : State) : (brreset s).vseed2 = s.vseed2 := by
  unfold brreset; split <;> rfl
@[simp] theorem brreset_vseed3 (s : State) : (brreset s).vseed3 = s.vseed3 := by
  unfold brreset; split <;> rfl
@[simp] theorem brreset_minReg (s : State) : (brreset s).minReg = s.minReg := by
  unfold brreset; split <;> rfl
@[simp] theorem brreset_maxReg (s : State) : (brreset s).maxReg = s.maxReg := by
  unfold brreset; split <;> rfl
@[simp] theorem brreset_tsel (s : State) : (brreset s).tsel = s.tsel := by
  unfold brreset; split <;> rfl
@[simp] theorem brreset_maxlen (s : State) : (brreset s).maxlen = s.maxlen := by
  unfold brreset; split <;> rfl
@[simp] theorem brreset_fill (s : State) : (brreset s).fill = s.fill := by
  unfold brreset; split <;> rfl
@[simp] theorem brreset_srclen (s : State) : (brreset s).srclen = s.srclen := by
  unfold brreset; split <;> rfl
@[simp] theorem brreset_metalen (s : State) : (brreset s).metalen = s.metalen := by
  unfold brreset; split <;> rfl
@[simp] theorem brreset_caddr (s : State) : (brreset s).caddr = s.caddr := by
  unfold brreset; split <;> rfl
@[simp] theorem brreset_hslot (s : State) : (brreset s).hslot = s.hslot := by
  unfold brreset; split <;> rfl
@[simp] theorem brreset_curve (s : State) : (brreset s).curve = s.curve := by
  unfold brreset; split <;> rfl
@[simp] theorem brreset_cfg (s : State) : (brreset s).cfg = s.cfg := by
  unfold brreset; split <;> rfl
@[simp] theorem brreset_data (s : State) : (brreset s).data = s.data := by
  unfold brreset; split <;> rfl
@[simp] theorem brreset_metaMem (s : State) : (brreset s).metaMem = s.metaMem := by
  unfold brreset; split <;> rfl
@[simp] theorem brreset_raster (s : State) : (brreset s).raster = s.raster := by
  unfold brreset; split <;> rfl
@[simp] theorem brreset_hostIn (s : State) : (brreset s).hostIn = s.hostIn := by
  unfold brreset; split <;> rfl
@[simp] theorem brreset_hostOut (s : State) : (brreset s).hostOut = s.hostOut := by
  unfold brreset; split <;> rfl
@[simp] theorem brreset_draws (s : State) : (brreset s).draws = s.draws := by
  unfold brreset; split <;> rfl
@[simp] theorem emit_vpred00 (v : Word) (s : State) : (emit v s).vpred00 = s.vpred00 := by
  unfold emit; split <;> rfl
@[simp] theorem emit_vpred01 (v : Word) (s : State) : (emit v s).vpred01 = s.vpred01 := by
  unfold emit; split <;> rfl
@[simp] theorem emit_vpred10 (v : Word) (s : State) : (emit v s).vpred10 = s.vpred10 := by
  unfold emit; split <;> rfl
@[simp] theorem emit_vpred11 (v : Word) (s : State) : (emit v s).vpred11 = s.vpred11 := by
  unfold emit; split <;> rfl
@[simp] theorem emit_hpred0 (v : Word) (s : State) : (emit v s).hpred0 = s.hpred0 := by
  unfold emit; split <;> rfl
@[simp] theorem emit_hpred1 (v : Word) (s : State) : (emit v s).hpred1 = s.hpred1 := by
  unfold emit; split <;> rfl
@[simp] theorem emit_bpByte (v : Word) (s : State) : (emit v s).bpByte = s.bpByte := by
  unfold emit; split <;> rfl
@[simp] theorem emit_bpBit (v : Word) (s : State) : (emit v s).bpBit = s.bpBit := by
  unfold emit; split <;> rfl
@[simp] theorem emit_row (v : Word) (s : State) : (emit v s).row = s.row := by
  unfold emit; split <;> rfl
@[simp] theorem emit_col (v : Word) (s : State) : (emit v s).col = s.col := by
  unfold emit; split <;> rfl
@[simp] theorem emit_mode (v : Word) (s : State) : (emit v s).mode = s.mode := by
  unfold emit; split <;> rfl
@[simp] theorem emit_run (v : Word) (s : State) : (emit v s).run = s.run := by
  unfold emit; split <;> rfl
@[simp] theorem emit_tvalid (v : Word) (s : State) : (emit v s).tvalid = s.tvalid := by
  unfold emit; split <;> rfl
@[simp] theorem emit_kind (v : Word) (s : State) : (emit v s).kind = s.kind := by
  unfold emit; split <;> rfl
@[simp] theorem emit_cause (v : Word) (s : State) : (emit v s).cause = s.cause := by
  unfold emit; split <;> rfl
@[simp] theorem emit_frow (v : Word) (s : State) : (emit v s).frow = s.frow := by
  unfold emit; split <;> rfl
@[simp] theorem emit_fcol (v : Word) (s : State) : (emit v s).fcol = s.fcol := by
  unfold emit; split <;> rfl
@[simp] theorem emit_result (v : Word) (s : State) : (emit v s).result = s.result := by
  unfold emit; split <;> rfl
@[simp] theorem emit_bps (v : Word) (s : State) : (emit v s).bps = s.bps := by
  unfold emit; split <;> rfl
@[simp] theorem emit_lossless (v : Word) (s : State) : (emit v s).lossless = s.lossless := by
  unfold emit; split <;> rfl
@[simp] theorem emit_height (v : Word) (s : State) : (emit v s).height = s.height := by
  unfold emit; split <;> rfl
@[simp] theorem emit_raww (v : Word) (s : State) : (emit v s).raww = s.raww := by
  unfold emit; split <;> rfl
@[simp] theorem emit_visw (v : Word) (s : State) : (emit v s).visw = s.visw := by
  unfold emit; split <;> rfl
@[simp] theorem emit_lmargin (v : Word) (s : State) : (emit v s).lmargin = s.lmargin := by
  unfold emit; split <;> rfl
@[simp] theorem emit_split (v : Word) (s : State) : (emit v s).split = s.split := by
  unfold emit; split <;> rfl
@[simp] theorem emit_csize (v : Word) (s : State) : (emit v s).csize = s.csize := by
  unfold emit; split <;> rfl
@[simp] theorem emit_ver (v : Word) (s : State) : (emit v s).ver = s.ver := by
  unfold emit; split <;> rfl
@[simp] theorem emit_vseed0 (v : Word) (s : State) : (emit v s).vseed0 = s.vseed0 := by
  unfold emit; split <;> rfl
@[simp] theorem emit_vseed1 (v : Word) (s : State) : (emit v s).vseed1 = s.vseed1 := by
  unfold emit; split <;> rfl
@[simp] theorem emit_vseed2 (v : Word) (s : State) : (emit v s).vseed2 = s.vseed2 := by
  unfold emit; split <;> rfl
@[simp] theorem emit_vseed3 (v : Word) (s : State) : (emit v s).vseed3 = s.vseed3 := by
  unfold emit; split <;> rfl
@[simp] theorem emit_minReg (v : Word) (s : State) : (emit v s).minReg = s.minReg := by
  unfold emit; split <;> rfl
@[simp] theorem emit_maxReg (v : Word) (s : State) : (emit v s).maxReg = s.maxReg := by
  unfold emit; split <;> rfl
@[simp] theorem emit_tsel (v : Word) (s : State) : (emit v s).tsel = s.tsel := by
  unfold emit; split <;> rfl
@[simp] theorem emit_maxlen (v : Word) (s : State) : (emit v s).maxlen = s.maxlen := by
  unfold emit; split <;> rfl
@[simp] theorem emit_fill (v : Word) (s : State) : (emit v s).fill = s.fill := by
  unfold emit; split <;> rfl
@[simp] theorem emit_srclen (v : Word) (s : State) : (emit v s).srclen = s.srclen := by
  unfold emit; split <;> rfl
@[simp] theorem emit_metalen (v : Word) (s : State) : (emit v s).metalen = s.metalen := by
  unfold emit; split <;> rfl
@[simp] theorem emit_caddr (v : Word) (s : State) : (emit v s).caddr = s.caddr := by
  unfold emit; split <;> rfl
@[simp] theorem emit_hslot (v : Word) (s : State) : (emit v s).hslot = s.hslot := by
  unfold emit; split <;> rfl
@[simp] theorem emit_curve (v : Word) (s : State) : (emit v s).curve = s.curve := by
  unfold emit; split <;> rfl
@[simp] theorem emit_cfg (v : Word) (s : State) : (emit v s).cfg = s.cfg := by
  unfold emit; split <;> rfl
@[simp] theorem emit_data (v : Word) (s : State) : (emit v s).data = s.data := by
  unfold emit; split <;> rfl
@[simp] theorem emit_metaMem (v : Word) (s : State) : (emit v s).metaMem = s.metaMem := by
  unfold emit; split <;> rfl
@[simp] theorem emit_hostIn (v : Word) (s : State) : (emit v s).hostIn = s.hostIn := by
  unfold emit; split <;> rfl
@[simp] theorem emit_hostOut (v : Word) (s : State) : (emit v s).hostOut = s.hostOut := by
  unfold emit; split <;> rfl
@[simp] theorem emit_draws (v : Word) (s : State) : (emit v s).draws = s.draws := by
  unfold emit; split <;> rfl
@[simp] theorem advance_vpred00 (s : State) : (advance s).vpred00 = s.vpred00 := by
  unfold advance; split <;> rfl
@[simp] theorem advance_vpred01 (s : State) : (advance s).vpred01 = s.vpred01 := by
  unfold advance; split <;> rfl
@[simp] theorem advance_vpred10 (s : State) : (advance s).vpred10 = s.vpred10 := by
  unfold advance; split <;> rfl
@[simp] theorem advance_vpred11 (s : State) : (advance s).vpred11 = s.vpred11 := by
  unfold advance; split <;> rfl
@[simp] theorem advance_hpred0 (s : State) : (advance s).hpred0 = s.hpred0 := by
  unfold advance; split <;> rfl
@[simp] theorem advance_hpred1 (s : State) : (advance s).hpred1 = s.hpred1 := by
  unfold advance; split <;> rfl
@[simp] theorem advance_bpByte (s : State) : (advance s).bpByte = s.bpByte := by
  unfold advance; split <;> rfl
@[simp] theorem advance_bpBit (s : State) : (advance s).bpBit = s.bpBit := by
  unfold advance; split <;> rfl
@[simp] theorem advance_mode (s : State) : (advance s).mode = s.mode := by
  unfold advance; split <;> rfl
@[simp] theorem advance_tvalid (s : State) : (advance s).tvalid = s.tvalid := by
  unfold advance; split <;> rfl
@[simp] theorem advance_kind (s : State) : (advance s).kind = s.kind := by
  unfold advance; split <;> rfl
@[simp] theorem advance_cause (s : State) : (advance s).cause = s.cause := by
  unfold advance; split <;> rfl
@[simp] theorem advance_frow (s : State) : (advance s).frow = s.frow := by
  unfold advance; split <;> rfl
@[simp] theorem advance_fcol (s : State) : (advance s).fcol = s.fcol := by
  unfold advance; split <;> rfl
@[simp] theorem advance_result (s : State) : (advance s).result = s.result := by
  unfold advance; split <;> rfl
@[simp] theorem advance_bps (s : State) : (advance s).bps = s.bps := by
  unfold advance; split <;> rfl
@[simp] theorem advance_lossless (s : State) : (advance s).lossless = s.lossless := by
  unfold advance; split <;> rfl
@[simp] theorem advance_height (s : State) : (advance s).height = s.height := by
  unfold advance; split <;> rfl
@[simp] theorem advance_raww (s : State) : (advance s).raww = s.raww := by
  unfold advance; split <;> rfl
@[simp] theorem advance_visw (s : State) : (advance s).visw = s.visw := by
  unfold advance; split <;> rfl
@[simp] theorem advance_lmargin (s : State) : (advance s).lmargin = s.lmargin := by
  unfold advance; split <;> rfl
@[simp] theorem advance_split (s : State) : (advance s).split = s.split := by
  unfold advance; split <;> rfl
@[simp] theorem advance_csize (s : State) : (advance s).csize = s.csize := by
  unfold advance; split <;> rfl
@[simp] theorem advance_ver (s : State) : (advance s).ver = s.ver := by
  unfold advance; split <;> rfl
@[simp] theorem advance_vseed0 (s : State) : (advance s).vseed0 = s.vseed0 := by
  unfold advance; split <;> rfl
@[simp] theorem advance_vseed1 (s : State) : (advance s).vseed1 = s.vseed1 := by
  unfold advance; split <;> rfl
@[simp] theorem advance_vseed2 (s : State) : (advance s).vseed2 = s.vseed2 := by
  unfold advance; split <;> rfl
@[simp] theorem advance_vseed3 (s : State) : (advance s).vseed3 = s.vseed3 := by
  unfold advance; split <;> rfl
@[simp] theorem advance_minReg (s : State) : (advance s).minReg = s.minReg := by
  unfold advance; split <;> rfl
@[simp] theorem advance_maxReg (s : State) : (advance s).maxReg = s.maxReg := by
  unfold advance; split <;> rfl
@[simp] theorem advance_tsel (s : State) : (advance s).tsel = s.tsel := by
  unfold advance; split <;> rfl
@[simp] theorem advance_maxlen (s : State) : (advance s).maxlen = s.maxlen := by
  unfold advance; split <;> rfl
@[simp] theorem advance_fill (s : State) : (advance s).fill = s.fill := by
  unfold advance; split <;> rfl
@[simp] theorem advance_srclen (s : State) : (advance s).srclen = s.srclen := by
  unfold advance; split <;> rfl
@[simp] theorem advance_metalen (s : State) : (advance s).metalen = s.metalen := by
  unfold advance; split <;> rfl
@[simp] theorem advance_caddr (s : State) : (advance s).caddr = s.caddr := by
  unfold advance; split <;> rfl
@[simp] theorem advance_hslot (s : State) : (advance s).hslot = s.hslot := by
  unfold advance; split <;> rfl
@[simp] theorem advance_curve (s : State) : (advance s).curve = s.curve := by
  unfold advance; split <;> rfl
@[simp] theorem advance_cfg (s : State) : (advance s).cfg = s.cfg := by
  unfold advance; split <;> rfl
@[simp] theorem advance_data (s : State) : (advance s).data = s.data := by
  unfold advance; split <;> rfl
@[simp] theorem advance_metaMem (s : State) : (advance s).metaMem = s.metaMem := by
  unfold advance; split <;> rfl
@[simp] theorem advance_raster (s : State) : (advance s).raster = s.raster := by
  unfold advance; split <;> rfl
@[simp] theorem advance_hostIn (s : State) : (advance s).hostIn = s.hostIn := by
  unfold advance; split <;> rfl
@[simp] theorem advance_hostOut (s : State) : (advance s).hostOut = s.hostOut := by
  unfold advance; split <;> rfl
@[simp] theorem advance_draws (s : State) : (advance s).draws = s.draws := by
  unfold advance; split <;> rfl

end Sys2Proof.Machine
end

