-- ==== Sys2Proof/Laws/Ops.lean ====
section
/-! SUPPORT. For each shared operation, what it can do, said once: its cases, and its frame (`t = { s with … }` names the
fields that may differ). -/

namespace Sys2Proof.Machine

/-! ### Results -/

@[simp] theorem Res.bind_ok {α β : Type} (a : α) (s : State) (f : α → State → Res β) : (Res.ok a s).bind f = f a s := rfl

@[simp] theorem Res.bind_raised {α β : Type} (s : State) (f : α → State → Res β) :
    (Res.raised s : Res α).bind f = .raised s := rfl

@[simp] theorem Res.state_ok {α : Type} (a : α) (s : State) : (Res.ok a s).state = s := rfl

@[simp] theorem Res.state_raised {α : Type} (s : State) : (Res.raised s : Res α).state = s := rfl

theorem Res.bind_eq_ok {α β : Type} {r : Res α} {f : α → State → Res β} {b : β} {t : State} :
    r.bind f = .ok b t ↔ ∃ a s, r = .ok a s ∧ f a s = .ok b t := by
  cases r <;> simp

theorem Res.bind_eq_raised {α β : Type} {r : Res α} {f : α → State → Res β} {t : State} :
    r.bind f = .raised t ↔ r = .raised t ∨ ∃ a s, r = .ok a s ∧ f a s = .raised t := by
  cases r <;> simp

/-- A property of the state that each part keeps, the whole keeps. -/
theorem Res.state_bind {α β : Type} {P : State → Prop} {r : Res α} {f : α → State → Res β}
    (h : P r.state) (hf : ∀ a s, r = .ok a s → P (f a s).state) : P (r.bind f).state := by
  cases r with
  | ok a s => exact hf a s rfl
  | raised s => exact h

/-! ### The gate -/

theorem gate_fault {allow : RunState → Bool} {s : State} {body : Host.Outcome State Fault Refusal}
    (h : s.run = .fault) : gate allow s body = .next s := if_pos h

theorem gate_allowed {allow : RunState → Bool} {s : State} {body : Host.Outcome State Fault Refusal}
    (h : s.run ≠ .fault) (ha : allow s.run = true) : gate allow s body = body := by
  simp [gate, h, ha]

theorem gate_refused {allow : RunState → Bool} {s : State} {body : Host.Outcome State Fault Refusal}
    (h : s.run ≠ .fault) (ha : allow s.run = false) : gate allow s body = .next (s.raise .badState) := by
  simp [gate, h, ha]

/-- What a gated command answers is one of three: nothing, its body's answer, or the refusal. -/
theorem gate_cases {allow : RunState → Bool} {s t : State} {body : Host.Outcome State Fault Refusal}
    (h : gate allow s body = .next t) :
    (s.run = .fault ∧ t = s) ∨ (s.run ≠ .fault ∧ allow s.run = true ∧ body = .next t) ∨
      (s.run ≠ .fault ∧ allow s.run = false ∧ t = s.raise .badState) := by
  unfold gate at h
  split at h
  · cases h; exact .inl ⟨‹_›, rfl⟩
  · split at h
    · exact .inr (.inl ⟨‹_›, ‹_›, h⟩)
    · rename_i ha
      cases h
      exact .inr (.inr ⟨‹_›, by simpa using ha, rfl⟩)

/-! ### The bit reader -/

/-- RDBIT either finds no bit, or answers the bit at BP and moves BP one bit on. -/
theorem rdbit_cases (s : State) :
    (s.srclen.toNat ≤ s.bpByte.toNat ∧ rdbit s = .raised (s.raise .dataExhausted)) ∨
    (s.bpByte.toNat < s.srclen.toNat ∧ s.bpBit = 7 ∧
      rdbit s = .ok (dataBit s s.bpByte.toNat s.bpBit.toNat) (s.setBp (s.bpByte + 1) 0)) ∨
    (s.bpByte.toNat < s.srclen.toNat ∧ s.bpBit ≠ 7 ∧
      rdbit s = .ok (dataBit s s.bpByte.toNat s.bpBit.toNat) (s.setBp s.bpByte (s.bpBit + 1))) := by
  unfold rdbit
  by_cases h : s.srclen.toNat ≤ s.bpByte.toNat
  · exact .inl ⟨h, if_pos h⟩
  · rw [if_neg h]
    by_cases hb : s.bpBit = 7
    · exact .inr (.inl ⟨by omega, hb, if_pos hb⟩)
    · exact .inr (.inr ⟨by omega, hb, if_neg hb⟩)

/-- A result that differs from `s` in BP alone, with the exhausted fault on top where it was raised. -/
def BpOnly {α : Type} (s : State) (r : Res α) : Prop :=
  (∃ a b i, r = .ok a (s.setBp b i)) ∨ ∃ b i, r = .raised ((s.setBp b i).raise .dataExhausted)

theorem rdbit_bpOnly (s : State) : BpOnly s (rdbit s) := by
  rcases rdbit_cases s with ⟨-, h⟩ | ⟨-, -, h⟩ | ⟨-, -, h⟩
  · exact .inr ⟨s.bpByte, s.bpBit, h⟩
  · exact .inl ⟨_, _, _, h⟩
  · exact .inl ⟨_, _, _, h⟩

@[simp] theorem State.setBp_setBp (s : State) (b b' : BitVec 32) (i i' : BitVec 3) :
    (s.setBp b i).setBp b' i' = s.setBp b' i' := rfl

@[simp] theorem State.setBp_self (s : State) : s.setBp s.bpByte s.bpBit = s := rfl

theorem rdbitsFrom_bpOnly (n v : Nat) (s : State) : BpOnly s (rdbitsFrom n v s) := by
  induction n generalizing v s with
  | zero => exact .inl ⟨v, s.bpByte, s.bpBit, rfl⟩
  | succ n ih =>
    unfold rdbitsFrom
    rcases rdbit_bpOnly s with ⟨a, b, i, h⟩ | ⟨b, i, h⟩ <;> rw [h]
    · rcases ih (2 * v + a.toNat) (s.setBp b i) with ⟨a', b', i', h'⟩ | ⟨b', i', h'⟩
      · exact .inl ⟨a', b', i', h'⟩
      · exact .inr ⟨b', i', h'⟩
    · exact .inr ⟨b, i, rfl⟩

/-- RDBITS touches BP alone; short of bits it faults with DATA_EXHAUSTED. -/
theorem rdbits_bpOnly (n : Nat) (s : State) : BpOnly s (rdbits n s) := rdbitsFrom_bpOnly n 0 s

theorem rdbits_zero (s : State) : rdbits 0 s = .ok 0 s := rfl

theorem brreset_eq (s : State) : brreset s = s.setBp (if s.bpBit = 0 then s.bpByte else s.bpByte + 1) 0 := by
  unfold brreset
  by_cases h : s.bpBit = 0
  · rw [if_neg (not_not_intro h), if_pos h, ← h]; rfl
  · rw [if_pos h, if_neg h]

/-- The walk of the symbol decoder touches BP alone; it ends in a symbol, or in one of two faults. -/
theorem hdecFrom_frame (n l code : Nat) (s : State) :
    (∃ a b i, hdecFrom n l code s = .ok a (s.setBp b i)) ∨
      ∃ b i c, (c = .dataExhausted ∨ c = .codeUnassigned) ∧ hdecFrom n l code s = .raised ((s.setBp b i).raise c) := by
  induction n generalizing l code s with
  | zero => exact .inr ⟨s.bpByte, s.bpBit, _, .inr rfl, rfl⟩
  | succ n ih =>
    unfold hdecFrom
    rcases rdbit_bpOnly s with ⟨a, b, i, h⟩ | ⟨b, i, h⟩
    · rw [h, Res.bind_ok]
      have next : ∀ code', (∃ a' b' i', hdecFrom n (l + 1) code' (s.setBp b i) = .ok a' (s.setBp b' i')) ∨
          ∃ b' i' c, (c = .dataExhausted ∨ c = .codeUnassigned) ∧
            hdecFrom n (l + 1) code' (s.setBp b i) = .raised ((s.setBp b' i').raise c) := fun code' => by
        simpa using ih (l + 1) code' (s.setBp b i)
      dsimp only
      split
      · exact .inr ⟨b, i, _, .inr rfl, rfl⟩
      · split
        · split
          · exact .inl ⟨_, b, i, rfl⟩
          · exact next _
        · exact next _
    · exact .inr ⟨b, i, _, .inl rfl, by rw [h]; rfl⟩

/-- HDEC touches BP alone; it answers a symbol, or faults with DATA_EXHAUSTED or CODE_UNASSIGNED (41_huffman.md R145). -/
theorem hdec_frame (s : State) :
    (∃ a b i, hdec s = .ok a (s.setBp b i)) ∨
      ∃ b i c, (c = .dataExhausted ∨ c = .codeUnassigned) ∧ hdec s = .raised ((s.setBp b i).raise c) :=
  hdecFrom_frame _ _ _ s

/-- The fetch of a record touches BP alone. -/
theorem fetchRecord_frame (s : State) :
    (∃ r b i, fetchRecord s = .ok r (s.setBp b i)) ∨
      ∃ b i c, (c = .dataExhausted ∨ c = .codeUnassigned) ∧ fetchRecord s = .raised ((s.setBp b i).raise c) := by
  unfold fetchRecord
  rcases hdec_frame s with ⟨sym, b, i, h⟩ | ⟨b, i, c, hc, h⟩ <;> rw [h]
  · rw [Res.bind_ok]
    rcases rdbits_bpOnly (payloadRawBits sym.payload) (s.setBp b i) with ⟨a, b', i', h'⟩ | ⟨b', i', h'⟩ <;> rw [h']
    · exact .inl ⟨_, b', i', rfl⟩
    · exact .inr ⟨b', i', _, .inl rfl, rfl⟩
  · exact .inr ⟨b, i, c, hc, rfl⟩

/-! ### The table builder -/

/-- Slot assignment touches HSLOT alone; it answers the counter, or faults with OVERSUBSCRIBED or BAD_PAYLOAD. -/
theorem assignCodes_frame (table : PackedTable) (m : Nat) (ls : List Nat) (p k : Nat) (s : State) :
    ∃ slots, (∃ p', assignCodes table m ls p k s = .ok p' { s with hslot := slots }) ∨
      ∃ c, (c = .oversubscribed ∨ c = .badPayload) ∧
        assignCodes table m ls p k s = .raised (({ s with hslot := slots } : State).raise c) := by
  induction ls generalizing p k s with
  | nil => exact ⟨s.hslot, .inl ⟨p, rfl⟩⟩
  | cons l ls ih =>
    unfold assignCodes
    dsimp only
    split
    · exact ⟨s.hslot, .inr ⟨_, .inl rfl, rfl⟩⟩
    · split
      · exact ⟨s.hslot, .inr ⟨_, .inr rfl, rfl⟩⟩
      · exact ih _ _ _

/-- HBUILD builds, or faults with the kind HUFFMAN_TABLE_INVALID and TVALID clear; it touches the table registers alone
(41_huffman.md R144). -/
theorem hbuild_cases (t : Nat) (s : State) :
    (∃ p slots, hbuild t s = .ok () { s with
        tvalid := true, maxlen := BitVec.ofNat 5 (scanMaxLen (hromTable s t) 16), hslot := slots
        fill := BitVec.ofNat 17 p, tsel := BitVec.ofNat 3 t }) ∨
    ∃ c m slots, c.kind = .huffmanTableInvalid ∧
      hbuild t s = .raised (({ s with tvalid := false, maxlen := m, hslot := slots } : State).raise c) := by
  unfold hbuild
  dsimp only
  split
  · exact .inr ⟨.maxlenZero, s.maxlen, s.hslot, rfl, rfl⟩
  · split
    · exact .inr ⟨.tooManySymbols, s.maxlen, s.hslot, rfl, rfl⟩
    · obtain ⟨slots, ⟨p, h⟩ | ⟨c, hc, h⟩⟩ := assignCodes_frame (hromTable s t) (scanMaxLen (hromTable s t) 16)
        (codeLengths (hromTable s t) (scanMaxLen (hromTable s t) 16)) 0 0
        { s with
          tvalid := false, maxlen := BitVec.ofNat 5 (scanMaxLen (hromTable s t) 16)
          hslot := storeClearBelow s.hslot (2 ^ scanMaxLen (hromTable s t) 16) }
      · exact .inl ⟨p, slots, by rw [h]; rfl⟩
      · exact .inr ⟨c, _, slots, by rcases hc with rfl | rfl <;> rfl, by rw [h]; rfl⟩

/-- The slots of a table, asked for the slots below `2^MAXLEN` one by one. -/
theorem slotsOf_of_bounded {table : PackedTable} {slots : List (Nat × Slot)}
    (h : ∀ k < (tableLengths table).length, ∀ q < codeStart table (k + 1), codeStart table k ≤ q →
      storeGet slots q = some ⟨BitVec.ofNat 5 (codeLength table k), codePayload table k⟩)
    (hq : ∀ q < 2 ^ tableMaxLen table, tableFill table ≤ q → storeGet slots q = none) : SlotsOf table slots :=
  ⟨fun k hk q h1 h2 => h k hk q h2 h1, fun q h1 h2 => hq q h2 h1⟩

theorem hromTable_eq (s : State) (t : Fin 6) : hromTable s t.val = s.cfg.hrom[t] := by
  simp [hromTable]

/-- Under the hypothesis of R147 every table of HROM builds and is complete. -/
theorem hromTable_of_complete {s : State} {t : Nat} (h : HromComplete s.cfg.hrom) (ht : t ≤ 5) :
    Buildable (hromTable s t) ∧ tableFill (hromTable s t) = 2 ^ tableMaxLen (hromTable s t) := by
  have ht' : t < 6 := by omega
  rw [hromTable_eq s ⟨t, ht'⟩]
  exact h ⟨t, ht'⟩

/-- A build fails with a cause of the kind HUFFMAN_TABLE_INVALID. -/
theorem FailedBuild_kind {table : PackedTable} {s : State} {c : FaultCause} {m : BitVec 5} {slots : List (Nat × Slot)}
    (h : FailedBuild table s c m slots) : c.kind = .huffmanTableInvalid := by
  rcases h with ⟨-, rfl, -⟩ | ⟨-, -, rfl, -⟩ | ⟨-, -, -, k, ⟨-, -, ⟨-, rfl⟩ | ⟨-, -, rfl⟩⟩, -⟩ <;> rfl

/-- The k-th code takes `2^(MAXLEN - l)` slots from its start (41_huffman.md R143). -/
theorem codeStart_succ {table : PackedTable} {k : Nat} (h : k < (tableLengths table).length) :
    codeStart table (k + 1) = codeStart table k + 2 ^ (tableMaxLen table - codeLength table k) := by
  unfold codeStart codeLength
  rw [List.take_add_one, List.getElem?_eq_getElem h, List.map_append, List.sum_append,
    List.getD_eq_getElem?_getD, List.getElem?_eq_getElem h]
  rfl

/-! ### The curve unit -/

/-- CurveRead answers a written entry, or faults (42_curve.md R162). -/
theorem curveRead_cases (i : Nat) (s : State) :
    (∃ v, i ≤ 16384 ∧ storeGet s.curve i = some v ∧ curveRead i s = .ok v s) ∨
      ((16384 < i ∨ storeGet s.curve i = none) ∧ curveRead i s = .raised (s.raise .curveUnwritten)) := by
  unfold curveRead
  by_cases h : i > 16384
  · exact .inr ⟨.inl h, if_pos h⟩
  · rw [if_neg h]
    cases hg : storeGet s.curve i with
    | none => exact .inr ⟨.inr rfl, rfl⟩
    | some v => exact .inl ⟨v, by omega, rfl, rfl⟩

theorem storeGet_curveWrite (i k : Nat) (v : Word) (s : State) :
    storeGet (curveWrite i v s).curve k = if k = i then some v else storeGet s.curve k :=
  storeGet_storeSet _ _ _ _

/-- MetaRead8 answers the byte, or faults (R160). -/
theorem metaRead8_cases (a : Nat) (s : State) :
    (a < s.metalen.toNat ∧ metaRead8 a s = .ok (memRead s.metaMem a) s) ∨
      (s.metalen.toNat ≤ a ∧ metaRead8 a s = .raised (s.raise .metaExhausted)) := by
  unfold metaRead8
  by_cases h : s.metalen.toNat ≤ a
  · exact .inr ⟨h, if_pos h⟩
  · exact .inl ⟨by omega, if_neg h⟩

/-- MetaRead16 answers a word and changes nothing, or faults where its second byte is beyond METALEN (R161). -/
theorem metaRead16_cases (a : Nat) (s : State) :
    (a + 1 < s.metalen.toNat ∧ metaRead16 a s = .ok (meta16 s a) s) ∨
      (s.metalen.toNat ≤ a + 1 ∧ metaRead16 a s = .raised (s.raise .metaExhausted)) := by
  unfold metaRead16
  rcases metaRead8_cases a s with ⟨h, e⟩ | ⟨h, e⟩ <;> rw [e]
  · rw [Res.bind_ok]
    rcases metaRead8_cases (a + 1) s with ⟨h', e'⟩ | ⟨h', e'⟩ <;> rw [e']
    · exact .inl ⟨h', rfl⟩
    · exact .inr ⟨h', rfl⟩
  · exact .inr ⟨by omega, rfl⟩

/-- A result that differs from `s` in the curve store alone, with one of two faults on top where it was raised. -/
def CurveOnly (s : State) (r : Res Unit) : Prop :=
  ∃ curve, r = .ok () { s with curve := curve } ∨
    ∃ c, (c = .curveUnwritten ∨ c = .metaExhausted) ∧ r = .raised (({ s with curve := curve } : State).raise c)

theorem interpAt_curveOnly (step i : Nat) (s : State) : CurveOnly s (interpAt step i s) := by
  unfold interpAt
  dsimp only
  rcases curveRead_cases (i - i % step) s with ⟨v, -, -, h⟩ | ⟨-, h⟩ <;> rw [h]
  · rw [Res.bind_ok]
    split
    · exact ⟨_, .inl rfl⟩
    · rcases curveRead_cases (i - i % step + step) s with ⟨w, -, -, h'⟩ | ⟨-, h'⟩ <;> rw [h']
      · exact ⟨_, .inl rfl⟩
      · exact ⟨s.curve, .inr ⟨_, .inl rfl, rfl⟩⟩
  · exact ⟨s.curve, .inr ⟨_, .inl rfl, rfl⟩⟩

theorem CurveOnly.trans {s : State} {curve : List (Nat × Word)} {r : Res Unit}
    (h : CurveOnly { s with curve := curve } r) : CurveOnly s r := h

theorem CurveOnly.bind {s : State} {r : Res Unit} {f : Unit → State → Res Unit} (h : CurveOnly s r)
    (hf : ∀ t, CurveOnly t (f () t)) : CurveOnly s (r.bind f) := by
  obtain ⟨curve, rfl | ⟨c, hc, rfl⟩⟩ := h
  · exact (hf _).trans
  · exact ⟨curve, .inr ⟨c, hc, rfl⟩⟩

theorem interpFrom_curveOnly (step n i : Nat) (s : State) : CurveOnly s (interpFrom step n i s) := by
  induction n generalizing i s with
  | zero => exact ⟨s.curve, .inl rfl⟩
  | succ n ih => exact (interpAt_curveOnly step i s).bind fun t => ih (i + 1) t

/-- INTERP touches the curve and, at its end, MAX (R170). -/
theorem interp_cases (m n : Nat) (s : State) :
    ∃ curve, interp m n s = .ok () { s with curve := curve, maxReg := BitVec.ofNat 16 m } ∨
      ∃ c, (c = .curveUnwritten ∨ c = .metaExhausted) ∧
        interp m n s = .raised (({ s with curve := curve } : State).raise c) := by
  obtain ⟨curve, h | ⟨c, hc, h⟩⟩ := interpFrom_curveOnly (m / (n - 1)) m 0 s
  · exact ⟨curve, .inl (by rw [interp, h]; rfl)⟩
  · exact ⟨curve, .inr ⟨c, hc, by rw [interp, h]; rfl⟩⟩

theorem loadSamples_curveOnly (stride n k : Nat) (s : State) : CurveOnly s (loadSamples stride n k s) := by
  induction n generalizing k s with
  | zero => exact ⟨s.curve, .inl rfl⟩
  | succ n ih =>
    unfold loadSamples
    rcases metaRead16_cases (12 + 2 * k) s with ⟨-, h⟩ | ⟨-, h⟩ <;> rw [h]
    · exact (ih (k + 1) (curveWrite (k * stride) (meta16 s (12 + 2 * k)) s)).trans
    · exact ⟨s.curve, .inr ⟨_, .inr rfl, rfl⟩⟩

/-- CTRIM touches MAX alone, and MAX never grows (R173). -/
theorem ctrimFrom_frame (n : Nat) (s : State) :
    ∃ m, m.toNat ≤ s.maxReg.toNat ∧ (ctrimFrom n s = .ok () { s with maxReg := m } ∨
      ctrimFrom n s = .raised (({ s with maxReg := m } : State).raise .curveUnwritten)) := by
  induction n generalizing s with
  | zero => exact ⟨s.maxReg, le_rfl, .inl rfl⟩
  | succ n ih =>
    unfold ctrimFrom
    split
    · exact ⟨s.maxReg, le_rfl, .inl rfl⟩
    · rcases curveRead_cases (s.maxReg.toNat - 2) s with ⟨v, -, -, h⟩ | ⟨-, h⟩ <;> rw [h]
      · rw [Res.bind_ok]
        rcases curveRead_cases (s.maxReg.toNat - 1) s with ⟨w, -, -, h'⟩ | ⟨-, h'⟩ <;> rw [h']
        · rw [Res.bind_ok]
          split
          · obtain ⟨m, hm, e⟩ := ih { s with maxReg := s.maxReg - 1 }
            exact ⟨m, le_trans hm (by simp only; bv_omega), e⟩
          · exact ⟨s.maxReg, le_rfl, .inl rfl⟩
        · exact ⟨s.maxReg, le_rfl, .inr rfl⟩
      · exact ⟨s.maxReg, le_rfl, .inr rfl⟩

/-! ### The pixel -/

/-- PREDUPD touches lanes alone. -/
theorem predUpd_frame (diff : Int) (s : State) :
    ∃ a b c d e f, (predUpd diff s).2 =
      { s with vpred00 := a, vpred01 := b, vpred10 := c, vpred11 := d, hpred0 := e, hpred1 := f } := by
  unfold predUpd State.setHpred State.setVpred
  dsimp only
  split
  · cases s.row.getLsbD 0 <;> cases s.col.getLsbD 0 <;> exact ⟨_, _, _, _, _, _, rfl⟩
  · cases s.col.getLsbD 0 <;> exact ⟨_, _, _, _, _, _, rfl⟩

/-- EMIT writes one raster event in the window, else nothing (R200). -/
theorem emit_cases (v : Word) (s : State) :
    (inWindow s = true ∧ emit v s = { s with raster := s.raster ++ [⟨s.row, s.col - s.lmargin, v⟩] }) ∨
      (inWindow s = false ∧ emit v s = s) := by
  unfold emit
  by_cases h : inWindow s = true
  · exact .inl ⟨h, if_pos h⟩
  · exact .inr ⟨by simpa using h, if_neg h⟩

/-- ADVANCE goes to the next column, the next row, or the end (R204). -/
theorem advance_cases (s : State) :
    (s.col.toNat + 1 < s.raww.toNat ∧ advance s = { s with col := s.col + 1 }) ∨
    (s.raww.toNat ≤ s.col.toNat + 1 ∧ s.row + 1 = s.height ∧
      advance s = { s with col := 0, row := s.row + 1, run := .done }) ∨
    (s.raww.toNat ≤ s.col.toNat + 1 ∧ s.row + 1 ≠ s.height ∧ advance s = { s with col := 0, row := s.row + 1 }) := by
  unfold advance
  by_cases h : s.col.toNat + 1 < s.raww.toNat
  · exact .inl ⟨h, if_pos h⟩
  · rw [if_neg h]
    by_cases h' : s.row + 1 = s.height
    · exact .inr (.inl ⟨by omega, h', by rw [if_pos h']⟩)
    · exact .inr (.inr ⟨by omega, h', by rw [if_neg h']⟩)

/-- The execution of a record: the bounds fault, the curve fault, or the pixel emitted and the position advanced; the lanes
are updated in each (R205). -/
theorem pixelRecord_cases (len shl raw : Nat) (s : State) :
    let u := predUpd (residual len shl raw) s
    (outOfBounds u.2 u.1 = true ∧ pixelRecord len shl raw s = .raised (u.2.raise .bounds)) ∨
    (outOfBounds u.2 u.1 = false ∧ storeGet u.2.curve (curveIndex u.1) = none ∧
      pixelRecord len shl raw s = .raised (u.2.raise .curveUnwritten)) ∨
    ∃ v, outOfBounds u.2 u.1 = false ∧ storeGet u.2.curve (curveIndex u.1) = some v ∧
      pixelRecord len shl raw s = .ok () (advance (emit v u.2)) := by
  intro u
  have hi : ¬ 16384 < curveIndex u.1 := by unfold curveIndex; omega
  unfold pixelRecord cmap
  by_cases h : outOfBounds u.2 u.1 = true
  · exact .inl ⟨h, if_pos h⟩
  · have h' : outOfBounds u.2 u.1 = false := by simpa using h
    rcases curveRead_cases (curveIndex u.1) u.2 with ⟨v, -, hv, e⟩ | ⟨hn, e⟩
    · exact .inr (.inr ⟨v, h', hv, by dsimp only; rw [if_neg h, e]; rfl⟩)
    · exact .inr (.inl ⟨h', hn.resolve_left hi, by dsimp only; rw [if_neg h, e]; rfl⟩)

/-! ### The pixel step and the run loop -/

theorem pixStep_of_not_due {s : State} (h : splitDue s = false) : pixStep s = .ok (pixBody s).state := by
  simp [pixStep, rowStart, h]

theorem pixStep_of_due {s : State} (h : splitDue s = true) (ht : s.tsel.toNat + 1 ≤ 5) :
    pixStep s = .ok ((splitTrans s).bind fun _ s1 => pixBody s1).state := by
  simp [pixStep, rowStart, h, ht]

theorem pixStep_no_table {s : State} (h : splitDue s = true) (ht : 5 < s.tsel.toNat + 1) :
    pixStep s = .error (.noSuchTable (s.tsel.toNat + 1)) := by
  simp [pixStep, rowStart, h, Nat.not_le.mpr ht]

/-- What a pixel step answers: the stop, the transition's fault, or fetch and execution after it (R202, R205). -/
theorem pixStep_cases {s t : State} (h : pixStep s = .ok t) :
    (splitDue s = false ∧ t = (pixBody s).state) ∨
    (splitDue s = true ∧ s.tsel.toNat + 1 ≤ 5 ∧
      ((splitTrans s = .raised t) ∨ ∃ s1, splitTrans s = .ok () s1 ∧ t = (pixBody s1).state)) := by
  by_cases hd : splitDue s = true
  · by_cases ht : s.tsel.toNat + 1 ≤ 5
    · rw [pixStep_of_due hd ht] at h
      refine .inr ⟨hd, ht, ?_⟩
      cases hs : splitTrans s with
      | ok a s1 => rw [hs] at h; cases h; exact .inr ⟨s1, rfl, rfl⟩
      | raised s1 => rw [hs] at h; cases h; exact .inl rfl
    · rw [pixStep_no_table hd (by omega)] at h; cases h
  · have hd' : splitDue s = false := by simpa using hd
    rw [pixStep_of_not_due hd'] at h
    exact .inl ⟨hd', by cases h; rfl⟩

/-- The split transition: alignment and a build, then the new bounds and mode (R203). -/
theorem splitTrans_cases (s : State) :
    (∃ s2, hbuild (s.tsel.toNat + 1) (brreset s) = .ok () s2 ∧
      splitTrans s = .ok () { s2 with maxReg := s2.maxReg + 32, minReg := 16, mode := .split }) ∨
    ∃ s2, hbuild (s.tsel.toNat + 1) (brreset s) = .raised s2 ∧ splitTrans s = .raised s2 := by
  have ht : (brreset s).tsel = s.tsel := by rw [brreset_eq]; rfl
  unfold splitTrans
  dsimp only
  rw [ht]
  cases h : hbuild (s.tsel.toNat + 1) (brreset s) with
  | ok a s2 => exact .inl ⟨s2, rfl, rfl⟩
  | raised s2 => exact .inr ⟨s2, rfl, rfl⟩

theorem runLoop_zero (s : State) : runLoop 0 s = .ok s := rfl

theorem runLoop_active {n : Nat} {s t : State} (h : s.run = .active) (ht : pixStep s = .ok t) :
    runLoop (n + 1) s = runLoop n t := by
  simp [runLoop, h, ht]

theorem runLoop_stop {n : Nat} {s : State} {f : Fault} (h : s.run = .active) (ht : pixStep s = .error f) :
    runLoop (n + 1) s = .error f := by
  simp [runLoop, h, ht]

theorem runLoop_inactive {n : Nat} {s : State} (h : s.run ≠ .active) : runLoop n s = .ok s := by
  cases n <;> simp [runLoop, h]

/-- A property that every pixel step from an active state keeps, the run loop keeps. -/
theorem runLoop_keeps {P : State → Prop} (hstep : ∀ s t, s.run = .active → pixStep s = .ok t → P s → P t) {n : Nat}
    {s t : State} (h : runLoop n s = .ok t) (hs : P s) : P t := by
  induction n generalizing s with
  | zero => cases h; exact hs
  | succ n ih =>
    by_cases ha : s.run = .active
    · cases hp : pixStep s with
      | ok s' => rw [runLoop_active ha hp] at h; exact ih h (hstep s s' ha hp hs)
      | error f => rw [runLoop_stop ha hp] at h; cases h
    · rw [runLoop_inactive ha] at h; cases h; exact hs

/-! ### The host's side -/

/-- What serving one access does, by the kind of access. -/
theorem step_cases (s : State) :
    (s.hostIn = [] ∧ step s = .next s) ∨
    (∃ addr v rest, s.hostIn = .write addr v :: rest ∧ step s = hostWrite addr v { s with hostIn := rest }) ∨
    (∃ addr rest, s.hostIn = .read addr :: rest ∧
      step s = .next (serveRead addr.toNat { s with hostIn := rest })) ∨
    ∃ rest, s.hostIn = .hardReset :: rest ∧ step s = .next (resetAll { s with hostIn := rest }) := by
  unfold step serve
  cases h : s.hostIn with
  | nil => exact .inl ⟨rfl, rfl⟩
  | cons a rest =>
    cases a with
    | write addr v => exact .inr (.inl ⟨addr, v, rest, rfl, rfl⟩)
    | read addr => exact .inr (.inr (.inl ⟨addr, rest, rfl, rfl⟩))
    | hardReset => exact .inr (.inr (.inr ⟨rest, rfl, rfl⟩))

/-- HostWrite: ignored or RESET in FAULT; else a command, or a register write (44_host_commands.md R230). -/
theorem hostWrite_cases (addr : Byte) (v : Word) (s : State) :
    (s.run = .fault ∧ addr = 0 ∧ v = 0x0100 ∧ hostWrite addr v s = exec .reset s) ∨
    (s.run = .fault ∧ ¬(addr = 0 ∧ v = 0x0100) ∧ hostWrite addr v s = .next s) ∨
    (s.run ≠ .fault ∧ addr = 0 ∧ hostWrite addr v s = command v s) ∨
    (s.run ≠ .fault ∧ addr ≠ 0 ∧ hostWrite addr v s = .next (regWrite addr.toNat v s)) := by
  unfold hostWrite
  by_cases hf : s.run = .fault
  · rw [if_pos hf]
    by_cases hr : addr = 0 ∧ v = 0x0100
    · exact .inl ⟨hf, hr.1, hr.2, if_pos hr⟩
    · exact .inr (.inl ⟨hf, hr, if_neg hr⟩)
  · rw [if_neg hf]
    by_cases ha : addr = 0
    · exact .inr (.inr (.inl ⟨hf, ha, if_pos ha⟩))
    · exact .inr (.inr (.inr ⟨hf, ha, if_neg ha⟩))

/-- A command word runs its instruction, or is refused with BAD_CMD (R233). -/
theorem command_cases (w : Word) (s : State) :
    (∃ i, decodeCommand w = .ok i ∧ command w s = exec i s) ∨
      ∃ e, decodeCommand w = .error e ∧ command w s = .next (s.raise .badCmd) := by
  unfold command
  cases h : decodeCommand w with
  | ok i => exact .inl ⟨i, rfl, rfl⟩
  | error e => exact .inr ⟨e, rfl, rfl⟩

/-- A register write outside FAULT: two refusals, CDATA's refusal, CDATA's write, or a plain store (R230). -/
theorem regWrite_cases (addr : Nat) (v : Word) (s : State) :
    (addr ∉ writable ∧ regWrite addr v s = s.raise .badAccess) ∨
    (addr ∈ writable ∧ s.run ≠ .idle ∧ regWrite addr v s = s.raise .badState) ∨
    (addr = 0x29 ∧ s.run = .idle ∧ 16384 < s.caddr.toNat ∧ regWrite addr v s = s.raise .badAccess) ∨
    (addr = 0x29 ∧ s.run = .idle ∧ s.caddr.toNat ≤ 16384 ∧
      regWrite addr v s = { s with curve := storeSet s.curve s.caddr.toNat v, caddr := s.caddr + 1 }) ∨
    (addr ∈ writable ∧ addr ≠ 0x29 ∧ s.run = .idle ∧ regWrite addr v s = regStore addr v s) := by
  unfold regWrite
  by_cases hw : addr ∈ writable
  · by_cases hi : s.run = .idle
    · by_cases ha : addr = 0x29
      · subst ha
        by_cases hb : s.caddr.toNat > 16384
        · exact .inr (.inr (.inl ⟨rfl, hi, hb, by simp [hi, hb]⟩))
        · exact .inr (.inr (.inr (.inl ⟨rfl, hi, by omega, by simp [hw, hi, hb, curveWrite]⟩)))
      · exact .inr (.inr (.inr (.inr ⟨hw, ha, hi, by simp [hw, hi, ha]⟩)))
    · exact .inr (.inl ⟨hw, hi, by simp [hw, hi]⟩)
  · exact .inl ⟨hw, by simp [hw]⟩

end Sys2Proof.Machine
end

