-- ==== Sys2Proof/Laws/PerInstr.lean ====
section
/-! SUPPORT. The per-instruction family EncodedWidth: every encoding has as many bits as the opcode table's row. -/

namespace Sys2Proof.Laws.EncodedWidth

/-- The bits of the instruction's row in spec/opcode_table.json: `width`, or the length of a record's `encoding`. -/
def tableBits : Instr → Nat
  | .nop => 16
  | .reset => 16
  | .hdr => 16
  | .cint => 16
  | .ctrim => 16
  | .hbld _ => 16
  | .start => 16
  | .step => 16
  | .run => 16
  | .brst => 16
  | .rdb _ => 16
  | .hdec => 16
  | .pxZero => 8
  | .pxPlain _ _ => 8
  | .pxScaled _ _ _ => 8
  | .t0c00 _ => 7
  | .t0c01 _ => 7
  | .t0c02 _ => 6
  | .t0c03 _ => 9
  | .t0c04 _ => 5
  | .t0c05 _ => 10
  | .t0c06 _ => 5
  | .t0c07 => 5
  | .t0c08 _ => 14
  | .t0c09 _ => 16
  | .t0c10 _ => 19
  | .t0c11 _ => 19
  | .t0c12 _ => 22
  | .t0c13 => 10
  | .t1c00 _ => 8
  | .t1c01 _ => 8
  | .t1c02 _ => 8
  | .t1c03 _ => 8
  | .t1c04 _ => 8
  | .t1c05 _ => 8
  | .t1c06 _ => 8
  | .t1c07 _ => 8
  | .t1c08 _ => 8
  | .t1c09 _ => 8
  | .t1c10 => 8
  | .t1c11 _ => 20
  | .t1c12 _ => 22
  | .t1c13 _ => 22
  | .t2c00 _ => 7
  | .t2c01 _ => 7
  | .t2c02 _ => 9
  | .t2c03 _ => 6
  | .t2c04 _ => 10
  | .t2c05 _ => 6
  | .t2c06 _ => 12
  | .t2c07 _ => 6
  | .t2c08 _ => 14
  | .t2c09 => 5
  | .t2c10 _ => 16
  | .t2c11 _ => 18
  | .t2c12 _ => 19
  | .t3c00 _ => 7
  | .t3c01 _ => 9
  | .t3c02 _ => 7
  | .t3c03 _ => 10
  | .t3c04 _ => 11
  | .t3c05 _ => 7
  | .t3c06 _ => 13
  | .t3c07 _ => 6
  | .t3c08 _ => 6
  | .t3c09 => 6
  | .t3c10 _ => 17
  | .t3c11 _ => 19
  | .t3c12 _ => 21
  | .t3c13 _ => 23
  | .t3c14 _ => 24
  | .t4c00 _ => 10
  | .t4c01 _ => 10
  | .t4c02 _ => 10
  | .t4c03 _ => 10
  | .t4c04 _ => 10
  | .t4c05 _ => 10
  | .t4c06 _ => 10
  | .t4c07 _ => 10
  | .t4c08 _ => 10
  | .t4c09 _ => 10
  | .t4c10 _ => 10
  | .t4c11 _ => 10
  | .t4c12 => 10
  | .t4c13 _ => 24
  | .t4c14 _ => 25
  | .t5c00 _ => 9
  | .t5c01 _ => 9
  | .t5c02 _ => 11
  | .t5c03 _ => 8
  | .t5c04 _ => 12
  | .t5c05 _ => 8
  | .t5c06 _ => 14
  | .t5c07 _ => 8
  | .t5c08 _ => 16
  | .t5c09 _ => 18
  | .t5c10 _ => 8
  | .t5c11 => 6
  | .t5c12 _ => 8
  | .t5c13 _ => 21
  | .t5c14 _ => 22

/-- The encoding of `i` is as wide as its row. -/
def Statement (i : Instr) : Prop := (encode i).width = tableBits i

theorem nop : Statement .nop := rfl
theorem reset : Statement .reset := rfl
theorem hdr : Statement .hdr := rfl
theorem cint : Statement .cint := rfl
theorem ctrim : Statement .ctrim := rfl
theorem hbld (t : Byte) : Statement (.hbld t) := rfl
theorem start : Statement .start := rfl
theorem step : Statement .step := rfl
theorem run : Statement .run := rfl
theorem brst : Statement .brst := rfl
theorem rdb (n : Byte) : Statement (.rdb n) := rfl
theorem hdec : Statement .hdec := rfl
theorem pxZero : Statement .pxZero := rfl
theorem pxPlain (len raw : Nat) : Statement (.pxPlain len raw) := rfl
theorem pxScaled (len shl raw : Nat) : Statement (.pxScaled len shl raw) := rfl
theorem t0c00 (raw : BitVec 5) : Statement (.t0c00 raw) := rfl
theorem t0c01 (raw : BitVec 4) : Statement (.t0c01 raw) := rfl
theorem t0c02 (raw : BitVec 3) : Statement (.t0c02 raw) := rfl
theorem t0c03 (raw : BitVec 6) : Statement (.t0c03 raw) := rfl
theorem t0c04 (raw : BitVec 2) : Statement (.t0c04 raw) := rfl
theorem t0c05 (raw : BitVec 7) : Statement (.t0c05 raw) := rfl
theorem t0c06 (raw : BitVec 1) : Statement (.t0c06 raw) := rfl
theorem t0c07 : Statement .t0c07 := rfl
theorem t0c08 (raw : BitVec 8) : Statement (.t0c08 raw) := rfl
theorem t0c09 (raw : BitVec 9) : Statement (.t0c09 raw) := rfl
theorem t0c10 (raw : BitVec 11) : Statement (.t0c10 raw) := rfl
theorem t0c11 (raw : BitVec 10) : Statement (.t0c11 raw) := rfl
theorem t0c12 (raw : BitVec 12) : Statement (.t0c12 raw) := rfl
theorem t0c13 : Statement .t0c13 := rfl
theorem t1c00 (raw : BitVec 6) : Statement (.t1c00 raw) := rfl
theorem t1c01 (raw : BitVec 5) : Statement (.t1c01 raw) := rfl
theorem t1c02 (raw : BitVec 5) : Statement (.t1c02 raw) := rfl
theorem t1c03 (raw : BitVec 5) : Statement (.t1c03 raw) := rfl
theorem t1c04 (raw : BitVec 5) : Statement (.t1c04 raw) := rfl
theorem t1c05 (raw : BitVec 5) : Statement (.t1c05 raw) := rfl
theorem t1c06 (raw : BitVec 4) : Statement (.t1c06 raw) := rfl
theorem t1c07 (raw : BitVec 3) : Statement (.t1c07 raw) := rfl
theorem t1c08 (raw : BitVec 2) : Statement (.t1c08 raw) := rfl
theorem t1c09 (raw : BitVec 1) : Statement (.t1c09 raw) := rfl
theorem t1c10 : Statement .t1c10 := rfl
theorem t1c11 (raw : BitVec 11) : Statement (.t1c11 raw) := rfl
theorem t1c12 (raw : BitVec 12) : Statement (.t1c12 raw) := rfl
theorem t1c13 (raw : BitVec 12) : Statement (.t1c13 raw) := rfl
theorem t2c00 (raw : BitVec 5) : Statement (.t2c00 raw) := rfl
theorem t2c01 (raw : BitVec 4) : Statement (.t2c01 raw) := rfl
theorem t2c02 (raw : BitVec 6) : Statement (.t2c02 raw) := rfl
theorem t2c03 (raw : BitVec 3) : Statement (.t2c03 raw) := rfl
theorem t2c04 (raw : BitVec 7) : Statement (.t2c04 raw) := rfl
theorem t2c05 (raw : BitVec 2) : Statement (.t2c05 raw) := rfl
theorem t2c06 (raw : BitVec 8) : Statement (.t2c06 raw) := rfl
theorem t2c07 (raw : BitVec 1) : Statement (.t2c07 raw) := rfl
theorem t2c08 (raw : BitVec 9) : Statement (.t2c08 raw) := rfl
theorem t2c09 : Statement .t2c09 := rfl
theorem t2c10 (raw : BitVec 10) : Statement (.t2c10 raw) := rfl
theorem t2c11 (raw : BitVec 11) : Statement (.t2c11 raw) := rfl
theorem t2c12 (raw : BitVec 12) : Statement (.t2c12 raw) := rfl
theorem t3c00 (raw : BitVec 5) : Statement (.t3c00 raw) := rfl
theorem t3c01 (raw : BitVec 6) : Statement (.t3c01 raw) := rfl
theorem t3c02 (raw : BitVec 4) : Statement (.t3c02 raw) := rfl
theorem t3c03 (raw : BitVec 7) : Statement (.t3c03 raw) := rfl
theorem t3c04 (raw : BitVec 8) : Statement (.t3c04 raw) := rfl
theorem t3c05 (raw : BitVec 3) : Statement (.t3c05 raw) := rfl
theorem t3c06 (raw : BitVec 9) : Statement (.t3c06 raw) := rfl
theorem t3c07 (raw : BitVec 2) : Statement (.t3c07 raw) := rfl
theorem t3c08 (raw : BitVec 1) : Statement (.t3c08 raw) := rfl
theorem t3c09 : Statement .t3c09 := rfl
theorem t3c10 (raw : BitVec 10) : Statement (.t3c10 raw) := rfl
theorem t3c11 (raw : BitVec 11) : Statement (.t3c11 raw) := rfl
theorem t3c12 (raw : BitVec 12) : Statement (.t3c12 raw) := rfl
theorem t3c13 (raw : BitVec 13) : Statement (.t3c13 raw) := rfl
theorem t3c14 (raw : BitVec 14) : Statement (.t3c14 raw) := rfl
theorem t4c00 (raw : BitVec 8) : Statement (.t4c00 raw) := rfl
theorem t4c01 (raw : BitVec 7) : Statement (.t4c01 raw) := rfl
theorem t4c02 (raw : BitVec 7) : Statement (.t4c02 raw) := rfl
theorem t4c03 (raw : BitVec 7) : Statement (.t4c03 raw) := rfl
theorem t4c04 (raw : BitVec 7) : Statement (.t4c04 raw) := rfl
theorem t4c05 (raw : BitVec 7) : Statement (.t4c05 raw) := rfl
theorem t4c06 (raw : BitVec 6) : Statement (.t4c06 raw) := rfl
theorem t4c07 (raw : BitVec 5) : Statement (.t4c07 raw) := rfl
theorem t4c08 (raw : BitVec 4) : Statement (.t4c08 raw) := rfl
theorem t4c09 (raw : BitVec 3) : Statement (.t4c09 raw) := rfl
theorem t4c10 (raw : BitVec 2) : Statement (.t4c10 raw) := rfl
theorem t4c11 (raw : BitVec 1) : Statement (.t4c11 raw) := rfl
theorem t4c12 : Statement .t4c12 := rfl
theorem t4c13 (raw : BitVec 13) : Statement (.t4c13 raw) := rfl
theorem t4c14 (raw : BitVec 14) : Statement (.t4c14 raw) := rfl
theorem t5c00 (raw : BitVec 7) : Statement (.t5c00 raw) := rfl
theorem t5c01 (raw : BitVec 6) : Statement (.t5c01 raw) := rfl
theorem t5c02 (raw : BitVec 8) : Statement (.t5c02 raw) := rfl
theorem t5c03 (raw : BitVec 5) : Statement (.t5c03 raw) := rfl
theorem t5c04 (raw : BitVec 9) : Statement (.t5c04 raw) := rfl
theorem t5c05 (raw : BitVec 4) : Statement (.t5c05 raw) := rfl
theorem t5c06 (raw : BitVec 10) : Statement (.t5c06 raw) := rfl
theorem t5c07 (raw : BitVec 3) : Statement (.t5c07 raw) := rfl
theorem t5c08 (raw : BitVec 11) : Statement (.t5c08 raw) := rfl
theorem t5c09 (raw : BitVec 12) : Statement (.t5c09 raw) := rfl
theorem t5c10 (raw : BitVec 2) : Statement (.t5c10 raw) := rfl
theorem t5c11 : Statement .t5c11 := rfl
theorem t5c12 (raw : BitVec 1) : Statement (.t5c12 raw) := rfl
theorem t5c13 (raw : BitVec 13) : Statement (.t5c13 raw) := rfl
theorem t5c14 (raw : BitVec 14) : Statement (.t5c14 raw) := rfl

end Sys2Proof.Laws.EncodedWidth
end

