-- ==== Sys2Proof/Tests/Slice0.lean ====
section
/-! SUPPORT. Small tests: what WellFormed refuses, words written out from the spec's encodings, single steps with results from
95_test_vectors.md, and for each statement with hypotheses a state and operands that meet them. -/

namespace Sys2Proof.Tests

open Sys2Proof Sys2Proof.Machine

-- One at a time: each kernel evaluation holds a thread with its stack.
set_option Elab.async false

/-! ### Small states -/

/-- A packed table from its counts and its payload bytes. -/
def tab (counts payloads : List Nat) : PackedTable :=
  Vector.ofFn fun j : Fin 32 =>
    BitVec.ofNat 8 (if j.val < 16 then counts.getD j.val 0 else payloads.getD (j.val - 16) 0)

/-- The fixture tables of 95_test_vectors.md. -/
def tableA : PackedTable := tab [1] []
def tableB : PackedTable := tab [1, 2] [0, 3, 0x14]
def tableC : PackedTable := tab [1, 1, 2] [2, 0, 0x13, 1]
def tableD : PackedTable := tab [0, 1, 1] [1, 2]

/-- Parameters with the given tables; the rest is TP of 95_test_vectors.md. -/
def params (tables : List PackedTable) : Config where
  hrom := Vector.ofFn fun j : Fin 6 => tables.getD j.val (tab [] [])
  hdrBE := true
  hdrClasses := [(0x4420, .lossy2), (0x4630, .direct), (0x4958, .fwupdate)]
  splitOff := 18
  fwSkip := 0

/-- The state after reset with table B at index 0 and C at index 1. -/
def base : State := { State.reset with cfg := params [tableB, tableC] }

/-- `base` with DATA and SRCLEN. -/
def withData (bytes : List Byte) (s : State) : State :=
  { s with data := memWriteBytes [] 0 bytes, srclen := BitVec.ofNat 32 bytes.length }

/-- `base` with META and METALEN, BPS 12. -/
def withMeta (bytes : List Byte) : State :=
  { base with metaMem := memWriteBytes [] 0 bytes, metalen := BitVec.ofNat 32 bytes.length, bps := 12 }

/-- A decode under way in a 2 by 2 image with table B built, DATA given, and the curve written at 0 to 7 as `10 * i`. -/
def decoding (bytes : List Byte) : State :=
  withData bytes
    { (hbuild 0 base).state with
      bps := 12, height := 2, raww := 2, visw := 2, maxReg := 0x4001, run := .active
      curve := (List.range 8).map fun i => (i, BitVec.ofNat 16 (10 * i)) }

/-- The state an instruction or a step goes on to. -/
def next (o : Host.Outcome State Fault Refusal) : Option State :=
  match o with
  | .next s => some s
  | .fault _ => none
  | .refused _ => none

/-- One field of the state an instruction goes on to. -/
def nextField {α : Type} (f : State → α) (o : Host.Outcome State Fault Refusal) : Option α := (next o).map f

/-- STATUS and FAULT as the host reads them. -/
def flags (s : State) : Nat × Nat := ((statusWord s).toNat, (faultWord s).toNat)

/-! ### WellFormed refuses -/

theorem test_wf_refuses_hbld_6 : (Instr.hbld 6).wf = false := by decide
theorem test_wf_refuses_rdb_17 : (Instr.rdb 17).wf = false := by decide
theorem test_wf_refuses_plain_len_0 : (Instr.pxPlain 0 0).wf = false := by decide
theorem test_wf_refuses_plain_len_16 : (Instr.pxPlain 16 0).wf = false := by decide
theorem test_wf_refuses_plain_raw : (Instr.pxPlain 3 8).wf = false := by decide
theorem test_wf_refuses_scaled_shl_0 : (Instr.pxScaled 4 0 1).wf = false := by decide
theorem test_wf_refuses_scaled_shl_above_len : (Instr.pxScaled 2 3 0).wf = false := by decide
theorem test_wf_refuses_scaled_len_16 : (Instr.pxScaled 16 1 0).wf = false := by decide
theorem test_wf_refuses_scaled_raw : (Instr.pxScaled 4 1 8).wf = false := by decide

/-! ### Words written out -/

/-- Every command word of 30_encoding.md R103. -/
theorem test_decode_commands :
    decode (.cmd 0x0000) = .ok .nop ∧ decode (.cmd 0x0100) = .ok .reset ∧ decode (.cmd 0x0200) = .ok .hdr ∧
    decode (.cmd 0x0300) = .ok .cint ∧ decode (.cmd 0x0400) = .ok .ctrim ∧ decode (.cmd 0x0505) = .ok (.hbld 5) ∧
    decode (.cmd 0x0600) = .ok .start ∧ decode (.cmd 0x0700) = .ok .step ∧ decode (.cmd 0x0800) = .ok .run ∧
    decode (.cmd 0x0900) = .ok .brst ∧ decode (.cmd 0x0A0D) = .ok (.rdb 13) ∧ decode (.cmd 0x0B00) = .ok .hdec := by
  decide +kernel

/-- The reserved words of V72, and the first reserved opcode (R104). -/
theorem test_decode_reserved :
    decode (.cmd 0x0201) = .error .argNotZero ∧ decode (.cmd 0x0506) = .error .argOutOfRange ∧
    decode (.cmd 0x0A11) = .error .argOutOfRange ∧ decode (.cmd 0x0C00) = .error .reservedOpcode := by
  decide +kernel

/-- The payload classes of R93: payloads 0x00, 0x05, 0x27 and the illegal 0x21, with raw bits in front order. -/
theorem test_decode_payloads :
    decode (.record 0x00 []) = .ok .pxZero ∧
    decode (.record 0x05 [true, false, true, true, false]) = .ok (.pxPlain 5 22) ∧
    decode (.record 0x27 [false, false, true, false, true]) = .ok (.pxScaled 7 2 5) ∧
    decode (.record 0x21 []) = .error .illegalPayload ∧ decode (.record 0x05 [true]) = .error .rawWidth := by
  decide +kernel

/-- Every row of table 0, its `encoding` written out with a raw field of two leading ones (R108; PRESUMED, log entry 6). -/
theorem test_decode_table0_rows :
    decode (.stream 0 (bitsOf 7 0b0011000)) = .ok (.t0c00 0b11000) ∧
    decode (.stream 0 (bitsOf 7 0b0101100)) = .ok (.t0c01 0b1100) ∧
    decode (.stream 0 (bitsOf 6 0b011110)) = .ok (.t0c02 0b110) ∧
    decode (.stream 0 (bitsOf 9 0b100110000)) = .ok (.t0c03 0b110000) ∧
    decode (.stream 0 (bitsOf 5 0b10110)) = .ok (.t0c04 0b10) ∧
    decode (.stream 0 (bitsOf 10 0b1101100000)) = .ok (.t0c05 0b1100000) ∧
    decode (.stream 0 (bitsOf 5 0b11101)) = .ok (.t0c06 0b1) ∧
    decode (.stream 0 (bitsOf 5 0b11110)) = .ok (.t0c07) ∧
    decode (.stream 0 (bitsOf 14 0b11111011000000)) = .ok (.t0c08 0b11000000) ∧
    decode (.stream 0 (bitsOf 16 0b1111110110000000)) = .ok (.t0c09 0b110000000) ∧
    decode (.stream 0 (bitsOf 19 0b1111111011000000000)) = .ok (.t0c10 0b11000000000) ∧
    decode (.stream 0 (bitsOf 19 0b1111111101100000000)) = .ok (.t0c11 0b1100000000) ∧
    decode (.stream 0 (bitsOf 22 0b1111111110110000000000)) = .ok (.t0c12 0b110000000000) ∧
    decode (.stream 0 (bitsOf 10 0b1111111111)) = .ok (.t0c13) := by
  decide +kernel

/-- Every row of table 1, its `encoding` written out with a raw field of two leading ones (R108; PRESUMED, log entry 6). -/
theorem test_decode_table1_rows :
    decode (.stream 1 (bitsOf 8 0b00110000)) = .ok (.t1c00 0b110000) ∧
    decode (.stream 1 (bitsOf 8 0b01011000)) = .ok (.t1c01 0b11000) ∧
    decode (.stream 1 (bitsOf 8 0b01111000)) = .ok (.t1c02 0b11000) ∧
    decode (.stream 1 (bitsOf 8 0b10011000)) = .ok (.t1c03 0b11000) ∧
    decode (.stream 1 (bitsOf 8 0b10111000)) = .ok (.t1c04 0b11000) ∧
    decode (.stream 1 (bitsOf 8 0b11011000)) = .ok (.t1c05 0b11000) ∧
    decode (.stream 1 (bitsOf 8 0b11101100)) = .ok (.t1c06 0b1100) ∧
    decode (.stream 1 (bitsOf 8 0b11110110)) = .ok (.t1c07 0b110) ∧
    decode (.stream 1 (bitsOf 8 0b11111010)) = .ok (.t1c08 0b10) ∧
    decode (.stream 1 (bitsOf 8 0b11111101)) = .ok (.t1c09 0b1) ∧
    decode (.stream 1 (bitsOf 8 0b11111110)) = .ok (.t1c10) ∧
    decode (.stream 1 (bitsOf 20 0b11111111011000000000)) = .ok (.t1c11 0b11000000000) ∧
    decode (.stream 1 (bitsOf 22 0b1111111110110000000000)) = .ok (.t1c12 0b110000000000) ∧
    decode (.stream 1 (bitsOf 22 0b1111111111110000000000)) = .ok (.t1c13 0b110000000000) := by
  decide +kernel

/-- Every row of table 2, its `encoding` written out with a raw field of two leading ones (R108; PRESUMED, log entry 6). -/
theorem test_decode_table2_rows :
    decode (.stream 2 (bitsOf 7 0b0011000)) = .ok (.t2c00 0b11000) ∧
    decode (.stream 2 (bitsOf 7 0b0101100)) = .ok (.t2c01 0b1100) ∧
    decode (.stream 2 (bitsOf 9 0b011110000)) = .ok (.t2c02 0b110000) ∧
    decode (.stream 2 (bitsOf 6 0b100110)) = .ok (.t2c03 0b110) ∧
    decode (.stream 2 (bitsOf 10 0b1011100000)) = .ok (.t2c04 0b1100000) ∧
    decode (.stream 2 (bitsOf 6 0b110010)) = .ok (.t2c05 0b10) ∧
    decode (.stream 2 (bitsOf 12 0b110111000000)) = .ok (.t2c06 0b11000000) ∧
    decode (.stream 2 (bitsOf 6 0b111001)) = .ok (.t2c07 0b1) ∧
    decode (.stream 2 (bitsOf 14 0b11101110000000)) = .ok (.t2c08 0b110000000) ∧
    decode (.stream 2 (bitsOf 5 0b11110)) = .ok (.t2c09) ∧
    decode (.stream 2 (bitsOf 16 0b1111101100000000)) = .ok (.t2c10 0b1100000000) ∧
    decode (.stream 2 (bitsOf 18 0b111111011000000000)) = .ok (.t2c11 0b11000000000) ∧
    decode (.stream 2 (bitsOf 19 0b1111111110000000000)) = .ok (.t2c12 0b110000000000) := by
  decide +kernel

/-- Every row of table 3, its `encoding` written out with a raw field of two leading ones (R108; PRESUMED, log entry 6). -/
theorem test_decode_table3_rows :
    decode (.stream 3 (bitsOf 7 0b0011000)) = .ok (.t3c00 0b11000) ∧
    decode (.stream 3 (bitsOf 9 0b010110000)) = .ok (.t3c01 0b110000) ∧
    decode (.stream 3 (bitsOf 7 0b0111100)) = .ok (.t3c02 0b1100) ∧
    decode (.stream 3 (bitsOf 10 0b1001100000)) = .ok (.t3c03 0b1100000) ∧
    decode (.stream 3 (bitsOf 11 0b10111000000)) = .ok (.t3c04 0b11000000) ∧
    decode (.stream 3 (bitsOf 7 0b1100110)) = .ok (.t3c05 0b110) ∧
    decode (.stream 3 (bitsOf 13 0b1101110000000)) = .ok (.t3c06 0b110000000) ∧
    decode (.stream 3 (bitsOf 6 0b111010)) = .ok (.t3c07 0b10) ∧
    decode (.stream 3 (bitsOf 6 0b111101)) = .ok (.t3c08 0b1) ∧
    decode (.stream 3 (bitsOf 6 0b111110)) = .ok (.t3c09) ∧
    decode (.stream 3 (bitsOf 17 0b11111101100000000)) = .ok (.t3c10 0b1100000000) ∧
    decode (.stream 3 (bitsOf 19 0b1111111011000000000)) = .ok (.t3c11 0b11000000000) ∧
    decode (.stream 3 (bitsOf 21 0b111111110110000000000)) = .ok (.t3c12 0b110000000000) ∧
    decode (.stream 3 (bitsOf 23 0b11111111101100000000000)) = .ok (.t3c13 0b1100000000000) ∧
    decode (.stream 3 (bitsOf 24 0b111111111111000000000000)) = .ok (.t3c14 0b11000000000000) := by
  decide +kernel

/-- Every row of table 4, its `encoding` written out with a raw field of two leading ones (R108; PRESUMED, log entry 6). -/
theorem test_decode_table4_rows :
    decode (.stream 4 (bitsOf 10 0b0011000000)) = .ok (.t4c00 0b11000000) ∧
    decode (.stream 4 (bitsOf 10 0b0101100000)) = .ok (.t4c01 0b1100000) ∧
    decode (.stream 4 (bitsOf 10 0b0111100000)) = .ok (.t4c02 0b1100000) ∧
    decode (.stream 4 (bitsOf 10 0b1001100000)) = .ok (.t4c03 0b1100000) ∧
    decode (.stream 4 (bitsOf 10 0b1011100000)) = .ok (.t4c04 0b1100000) ∧
    decode (.stream 4 (bitsOf 10 0b1101100000)) = .ok (.t4c05 0b1100000) ∧
    decode (.stream 4 (bitsOf 10 0b1110110000)) = .ok (.t4c06 0b110000) ∧
    decode (.stream 4 (bitsOf 10 0b1111011000)) = .ok (.t4c07 0b11000) ∧
    decode (.stream 4 (bitsOf 10 0b1111101100)) = .ok (.t4c08 0b1100) ∧
    decode (.stream 4 (bitsOf 10 0b1111110110)) = .ok (.t4c09 0b110) ∧
    decode (.stream 4 (bitsOf 10 0b1111111010)) = .ok (.t4c10 0b10) ∧
    decode (.stream 4 (bitsOf 10 0b1111111101)) = .ok (.t4c11 0b1) ∧
    decode (.stream 4 (bitsOf 10 0b1111111110)) = .ok (.t4c12) ∧
    decode (.stream 4 (bitsOf 24 0b111111111101100000000000)) = .ok (.t4c13 0b1100000000000) ∧
    decode (.stream 4 (bitsOf 25 0b1111111111111000000000000)) = .ok (.t4c14 0b11000000000000) := by
  decide +kernel

/-- Every row of table 5, its `encoding` written out with a raw field of two leading ones (R108; PRESUMED, log entry 6). -/
theorem test_decode_table5_rows :
    decode (.stream 5 (bitsOf 9 0b001100000)) = .ok (.t5c00 0b1100000) ∧
    decode (.stream 5 (bitsOf 9 0b010110000)) = .ok (.t5c01 0b110000) ∧
    decode (.stream 5 (bitsOf 11 0b01111000000)) = .ok (.t5c02 0b11000000) ∧
    decode (.stream 5 (bitsOf 8 0b10011000)) = .ok (.t5c03 0b11000) ∧
    decode (.stream 5 (bitsOf 12 0b101110000000)) = .ok (.t5c04 0b110000000) ∧
    decode (.stream 5 (bitsOf 8 0b11001100)) = .ok (.t5c05 0b1100) ∧
    decode (.stream 5 (bitsOf 14 0b11011100000000)) = .ok (.t5c06 0b1100000000) ∧
    decode (.stream 5 (bitsOf 8 0b11100110)) = .ok (.t5c07 0b110) ∧
    decode (.stream 5 (bitsOf 16 0b1110111000000000)) = .ok (.t5c08 0b11000000000) ∧
    decode (.stream 5 (bitsOf 18 0b111100110000000000)) = .ok (.t5c09 0b110000000000) ∧
    decode (.stream 5 (bitsOf 8 0b11110110)) = .ok (.t5c10 0b10) ∧
    decode (.stream 5 (bitsOf 6 0b111110)) = .ok (.t5c11) ∧
    decode (.stream 5 (bitsOf 8 0b11111101)) = .ok (.t5c12 0b1) ∧
    decode (.stream 5 (bitsOf 21 0b111111101100000000000)) = .ok (.t5c13 0b1100000000000) ∧
    decode (.stream 5 (bitsOf 22 0b1111111111000000000000)) = .ok (.t5c14 0b11000000000000) := by
  decide +kernel

/-- Table words as the opcode table numbers them. -/
theorem test_decode_table_words :
    decodeTableWord 16 0x0503 = some (.hbld 3) ∧ decodeTableWord 8 0x16 = some (.pxScaled 6 1 0) ∧
    decodeTableWord 24 0xFFC000 = some (.t3c14 0) ∧ decodeTableWord 16 0x0201 = none := by
  decide +kernel

/-! ### One step of each command -/

/-- V78: NOP in FAULT is ignored; in DONE it does nothing. -/
theorem test_nop_changes_nothing :
    next (exec .nop { base with run := .done }) = some { base with run := .done } := by decide

/-- V78: RESET leaves FAULT and clears the record. -/
theorem test_reset_leaves_fault : nextField flags (exec .reset (base.raise .badCmd)) = some (0, 0) := by decide

/-- A DIRECT header in the manner of V31: samples 10, 20, 20 trim MAX from 3 to 2. -/
theorem test_hdr_direct_trims :
    nextField (fun s => (s.run, s.ver, s.vseed3, s.csize, s.maxReg, s.lossless))
      (exec .hdr (withMeta [0x46, 0x30, 0, 1, 0, 2, 0, 3, 0, 4, 0, 3, 0, 10, 0, 20, 0, 20])) =
      some (.idle, 0x4630, 4, 3, 2, true) := by
  decide +kernel

/-- V32: a FWUPDATE header, with VER written. -/
theorem test_hdr_refuses_firmware_update :
    nextField (fun s => (flags s, s.ver)) (exec .hdr (withMeta [0x49, 0x58, 0, 0])) = some ((3, 0x1101), 0x4958) := by
  decide +kernel

/-- V21 (b): the right end point at 14 is missing; entries 0 to 12 are written, MAX is not. -/
theorem test_interp_hole :
    (fun s : State => (flags s, storeGet s.curve 11, storeGet s.curve 13, s.maxReg))
      (interp 16 7 { base with curve := (List.range 7).map fun k => (2 * k, BitVec.ofNat 16 (10 * k)) }).state =
      ((3, 0x1301), some 55, none, 0) := by
  decide +kernel

/-- V32: CINT refuses a count of 1. -/
theorem test_cint_bad_count : nextField flags (exec .cint { base with bps := 12, csize := 1 }) = some (3, 0x1201) := by
  decide +kernel

/-- V22: 4, 4, 5, 5, 4, 4 trims from 6 to 5. -/
theorem test_ctrim_example :
    nextField (·.maxReg) (exec .ctrim { base with maxReg := 6, curve := [(0, 4), (1, 4), (2, 5), (3, 5), (4, 4), (5, 4)] }) =
      some 5 := by
  decide +kernel

/-- V23: trimming over a hole. -/
theorem test_ctrim_hole :
    nextField (fun s => (flags s, s.maxReg)) (exec .ctrim { base with maxReg := 3, curve := [(0, 1)] }) =
      some ((3, 0x1301), 3) := by
  decide +kernel

/-- V86 for table index 0: TVALID, MAXLEN 2, FILL 4. -/
theorem test_hbld_table_b :
    nextField (fun s => (flags s, s.maxlen, s.fill, s.hslot.length)) (exec (.hbld 0) base) = some ((8, 0), 2, 4, 4) := by
  decide +kernel

/-- V13: one code of length 1 with payload 0x21. -/
theorem test_hbld_bad_payload :
    nextField (fun s => (flags s, s.maxlen))
      (exec (.hbld 0) { base with cfg := params [tab [1] [0x21]] }) = some ((3, 0x2302), 1) := by
  decide +kernel

/-- V83: an empty image is DONE at once. -/
theorem test_start_empty_image : nextField flags (exec .start { base with bps := 12 }) = some (0x0A, 0) := by
  decide +kernel

/-- V82 (b): lossless with a split row. -/
theorem test_start_refuses_lossless_split :
    nextField flags (exec .start { base with bps := 12, lossless := true, split := 3 }) = some (3, 0x5205) := by
  decide +kernel

/-- One record of P2: bits 10 100 under table B are payload 0x03 with raw 4, diff 4. -/
theorem test_step_plain_record :
    nextField (fun s => (s.vpred00, s.hpred0, s.bpBit, s.col, s.raster)) (exec .step (decoding [0xA2])) =
      some (4, 4, 5, 1, [⟨0, 0, 40⟩]) := by
  decide +kernel

/-- V73: STEP in IDLE. -/
theorem test_step_in_idle : nextField flags (exec .step base) = some (3, 0x5105) := by decide +kernel

/-- Four records of payload 0x00 and the end: as P1 for a 2 by 2 image. -/
theorem test_run_four_zero_records :
    nextField (fun s => (flags s, s.row, s.col, s.bpBit, s.raster.length)) (exec .run (decoding [0x00])) =
      some ((0x0A, 0), 2, 0, 4, 4) := by
  decide +kernel

/-- V91: no bit at all. -/
theorem test_run_without_data : nextField flags (exec .run (decoding [])) = some (0x0B, 0x3003) := by decide +kernel

/-- V85: BRST from (0, 5) goes to (1, 0). -/
theorem test_brst_aligns :
    nextField (fun s => (s.bpByte, s.bpBit)) (exec .brst { base with bpBit := 5 }) = some (1, 0) := by decide +kernel

/-- V85: RDB 5 of A2 1D is 20. -/
theorem test_rdb_5 :
    nextField (fun s => (s.result, s.bpBit)) (exec (.rdb 5) (withData [0xA2, 0x1D] base)) = some (20, 5) := by
  decide +kernel

/-- V85: RDB past the end keeps RESULT. -/
theorem test_rdb_exhausted :
    nextField (fun s => (flags s, s.result))
      (exec (.rdb 1) { withData [0xA2, 0x1D] base with bpByte := 2, result := 29 }) = some ((3, 0x3003), 29) := by
  decide +kernel

/-- V86: HDEC of A2 under table B is payload 0x03, two bits. -/
theorem test_hdec_table_b :
    nextField (fun s => (s.result, s.bpBit)) (exec .hdec (decoding [0xA2])) = some (3, 2) := by decide +kernel

/-- V79: HDEC without a table. -/
theorem test_hdec_no_table : nextField flags (exec .hdec (withData [0] base)) = some (3, 0x5305) := by decide +kernel

/-! ### Records -/

/-- V40, V41, V42, V44: residuals. -/
theorem test_residuals :
    residual 8 0 0x25 = -218 ∧ residual 3 0 3 = -4 ∧ residual 15 0 0 = -32767 ∧ residual 6 1 15 = -33 ∧
    residual 10 5 16 = 528 ∧ residual 15 14 0 = -24576 ∧ residual 15 15 0 = 16384 ∧ residual 0 0 0 = 0 := by
  decide +kernel

/-- V43: PX.ZERO repeats the lane. -/
theorem test_px_zero : nextField (fun s => (s.hpred0, s.col)) (exec .pxZero { decoding [] with vpred00 := 6 }) = some (6, 1) := by
  decide +kernel

/-- V59: the lane wraps from 0xFFFE by 5 to 3. -/
theorem test_px_plain_wraps :
    nextField (fun s => (s.vpred00, s.raster)) (exec (.pxPlain 3 5) { decoding [] with vpred00 := 0xFFFE }) =
      some (3, [⟨0, 0, 30⟩]) := by
  decide +kernel

/-- V42: payload 0x16 with raw 15 is -33; the horizontal lane is used from column 2 on. -/
theorem test_px_scaled_horizontal :
    nextField (fun s => (s.hpred0, s.vpred00)) (exec (.pxScaled 6 1 15) { decoding [] with raww := 4, col := 2, hpred0 := 40 }) =
      some (7, 0) := by
  decide +kernel

/-- A row of a candidate table: T1.C03 has payload 0x27; V42: raw 21 is 86. -/
theorem test_t1c03 :
    nextField (fun s => (s.vpred01, s.hpred1)) (exec (.t1c03 21) { decoding [] with col := 1, vpred01 := 0xFFB0 }) =
      some (6, 6) := by
  decide +kernel

/-- V58 S3: below the window after a split. -/
theorem test_px_zero_below_the_window :
    nextField (fun s => (flags s, s.raster)) (exec .pxZero { decoding [] with vpred00 := 0xFFEF, minReg := 16, maxReg := 4128 }) =
      some ((0x0B, 0x4004), []) := by
  decide +kernel

/-! ### The bus, one step each -/

/-- V74: a write to STATUS. -/
theorem test_write_status : nextField flags (step { base with hostIn := [.write 0x01 1] }) = some (3, 0x5405) := by
  decide +kernel

/-- V77: CDATA at the last entry. -/
theorem test_write_cdata :
    nextField (fun s => (s.curve, s.caddr)) (step { base with hostIn := [.write 0x29 7], caddr := 16384 }) =
      some ([(16384, 7)], 16385) := by
  decide +kernel

/-- V76: FLAGS takes bit 0 only. -/
theorem test_read_flags :
    nextField (·.hostOut) (step { base with hostIn := [.read 0x07], lossless := true }) = some [1] := by decide +kernel

/-- A table word placed by `withFetchWord` is what the next step runs: HBLD 0; and payload 0x11, whose diff is 1
(V44), over a curve nothing wrote. -/
theorem test_withFetchWord_runs :
    nextField (·.tvalid) (step (base.withFetchWord 16 0x0500)) = some true ∧
    nextField (fun s => (s.run, s.vpred00)) (step (({ base with maxReg := 16 } : State).withFetchWord 8 0x11)) =
      some (.fault, 1) := by
  decide +kernel

/-! ### Witnesses: for each statement with hypotheses, a state and operands that meet them -/

theorem test_witness_ResetValues : ∃ rest, ({ base with hostIn := [.hardReset] } : State).hostIn = .hardReset :: rest :=
  ⟨[], rfl⟩

theorem test_witness_FaultIgnoresAllButReset :
    (base.raise .badCmd).run = .fault ∧ Instr.run ≠ .reset ∧
    ({ base.raise .badCmd with hostIn := [.write 0 0x0600] } : State).hostIn = .write 0 0x0600 :: [] ∧
    ¬((0 : Byte) = 0 ∧ (0x0600 : Word) = 0x0100) := by
  decide +kernel

theorem test_witness_OnlyResetLeavesFaultAndDone :
    nextField (·.run) (step { base with hostIn := [.write 0 0x0600], run := .done }) = some .fault ∧
    nextField (·.run) (step { base with hostIn := [.write 0 0x0000], run := .done }) = some .done ∧
    nextField (·.run) (step { base.raise .badCmd with hostIn := [.write 6 1] }) = some .fault ∧
    nextIsReset { base with hostIn := [.write 0 0x0600], run := .done } = false := by
  decide +kernel

/-- The words at the ends of the ranges, and a state outside FAULT. -/
theorem test_witness_ReservedCommandWords :
    decodeCommand 0x0505 = .ok (.hbld 5) ∧ decodeCommand 0x0506 = .error .argOutOfRange ∧
    decodeCommand 0x0A10 = .ok (.rdb 16) ∧ decodeCommand 0x0A11 = .error .argOutOfRange ∧
    decodeCommand 0x0B00 = .ok .hdec ∧ decodeCommand 0x0B01 = .error .argNotZero ∧
    decodeCommand 0x0C00 = .error .reservedOpcode ∧ base.run ≠ .fault := by
  decide +kernel

theorem test_witness_DecodeOfEncode :
    (Instr.hbld 5).wf = true ∧ (Instr.pxPlain 15 32767).wf = true ∧ (Instr.pxScaled 15 15 0).wf = true ∧
    (Instr.t3c14 16383).wf = true := by
  decide +kernel

theorem test_witness_StreamRecordReadWhole :
    encode (.t0c04 1) = .stream 0 [true, false, true, false, true] := by decide +kernel

theorem test_witness_StepRunsDecodedCommand :
    ({ base with hostIn := [.write 0 0x0A10] } : State).hostIn = .write 0 0x0A10 :: [] ∧ base.run ≠ .fault ∧
    decodeCommand 0x0A10 = .ok (.rdb 16) ∧ decodeCommand 0x0A11 = .error .argOutOfRange := by
  decide +kernel

/-- Table B is held throughout `decoding`. -/
theorem holdsTable_B : HoldsTable tableB (decoding [0xA2]) :=
  ⟨by decide +kernel, by decide +kernel, by decide +kernel, by decide +kernel,
    slotsOf_of_bounded (by decide +kernel) (by decide +kernel)⟩

/-- Under a table that is no candidate, a record is named by its class. -/
theorem test_witness_StepRunsFetchedRecord :
    let s : State := { decoding [0xA2] with hostIn := [.write 0 0x0700] }
    s.run = .active ∧ splitDue s = false ∧ hromTable s s.tsel.toNat = tableB ∧
    fetchRecord { s with hostIn := [] } = .ok ⟨2, 2, 3, 4⟩ { s with hostIn := [], bpBit := 5 } ∧
    recordInstr tableB 0 2 2 3 4 = some (.pxPlain 3 4) := by
  decide +kernel

/-- The bits 00 10001 under candidate table 2 (PRESUMED, log entry 6), placed as the next record. -/
def placedT2 : State := placeRecord candidateHrom 2 [false, false, true, false, false, false, true] base

theorem holdsTable_T2 : HoldsTable (hromTable placedT2 placedT2.tsel.toNat) placedT2 :=
  ⟨by decide +kernel, by decide +kernel, by decide +kernel, by decide +kernel,
    slotsOf_of_bounded (by decide +kernel) (by decide +kernel)⟩

theorem test_witness_StepRunsFetchedRecord_candidate :
    placedT2.hostIn = [.write 0 0x0700] ∧ placedT2.run = .active ∧ splitDue placedT2 = false ∧
    fetchRecord { placedT2 with hostIn := [] } = .ok ⟨2, 0, 5, 17⟩ { placedT2 with hostIn := [], bpBit := 7 } ∧
    recordInstr (hromTable placedT2 placedT2.tsel.toNat) placedT2.tsel.toNat 2 0 5 17 = some (.t2c00 17) := by
  decide +kernel

/-- A state in which the record with these fields gives the lane value 0, the only value inside the bounds. -/
def beforeRecord (len shl raw : Nat) : State :=
  { base with run := .active, vpred00 := BitVec.ofInt 16 (-(recordDiff len shl raw)), maxReg := 1, curve := [(0, 7)] }

/-- The hypotheses of `RecordCompletes` hold there. -/
def recordHypotheses (len shl raw : Nat) : Bool :=
  let s := beforeRecord len shl raw
  let p := pixelPred (recordDiff len shl raw) s
  decide (s.run = .active) && decide ((p + s.minReg).toNat < s.maxReg.toNat) &&
    decide (storeGet s.curve (min p.toInt.toNat 0x3fff) = some 7)

/-- PX.ZERO, and PX.PLAIN and PX.SCALED at both ends of their ranges. -/
theorem test_witness_RecordClassesComplete :
    recordHypotheses 0 0 0 = true ∧
    (∀ len ∈ [1, 8, 15], ∀ raw ∈ [0, 2 ^ len - 1],
      (Instr.pxPlain len raw).wf = true ∧ recordHypotheses len 0 raw = true) ∧
    (∀ x ∈ [(1, 1, 0), (4, 1, 7), (15, 14, 1), (15, 15, 0)],
      (Instr.pxScaled x.1 x.2.1 x.2.2).wf = true ∧ recordHypotheses x.1 x.2.1 x.2.2 = true) := by
  decide +kernel

/-- Every row of tables 0 to 2, with the least and the greatest raw field. -/
theorem test_witness_Tables0To2RecordsComplete :
    ∀ t ∈ [0, 1, 2], ∀ r ∈ codeRows t, ∀ raw ∈ [0, 2 ^ payloadRawBits r.payload - 1],
      recordHypotheses (payloadLen r.payload) (payloadShl r.payload) raw = true := by
  decide +kernel

/-- Every row of tables 3 to 5, with the least and the greatest raw field. -/
theorem test_witness_Tables3To5RecordsComplete :
    ∀ t ∈ [3, 4, 5], ∀ r ∈ codeRows t, ∀ raw ∈ [0, 2 ^ payloadRawBits r.payload - 1],
      recordHypotheses (payloadLen r.payload) (payloadShl r.payload) raw = true := by
  decide +kernel

/-- The lane value 8 is outside the bounds with MAX 8, and inside them with MAX 9 over a curve written below 8 only. -/
theorem test_witness_RecordFaultsKeepTheLane :
    (Instr.pxPlain 4 8).wf = true ∧ (Instr.pxScaled 4 4 0).wf = true ∧ Instr.pxZero.wf = true ∧
    (decoding []).run = .active ∧
    (let s : State := { decoding [] with maxReg := 8 };
      s.maxReg.toNat ≤ (pixelPred (recordDiff 4 0 8) s + s.minReg).toNat) ∧
    (let s : State := { decoding [] with maxReg := 9 };
      (pixelPred (recordDiff 4 0 8) s + s.minReg).toNat < s.maxReg.toNat ∧
        storeGet s.curve (min (pixelPred (recordDiff 4 0 8) s).toInt.toNat 0x3fff) = none) := by
  decide +kernel

theorem test_witness_ResidualByPayloadClass :
    ∀ x ∈ [(0, 0, 0), (15, 0, 0), (15, 0, 32767), (15, 15, 0), (15, 14, 1)],
      x.2.1 ≤ x.1 ∧ x.1 ≤ 15 ∧ x.2.2 < 2 ^ (x.1 - x.2.1) := by
  decide +kernel

theorem test_witness_PlainResidualInverse :
    ∀ d ∈ [1, -1, 32767, -32767], d ≠ (0 : Int) ∧ d.natAbs < 2 ^ 15 := by
  decide +kernel

/-- V53 and V52. -/
theorem test_witness_BoundsAreASignedWindow :
    (let s : State := { base with minReg := 16, maxReg := 0x4021 };
      s.maxReg.toNat ≤ 0x4021 ∧ s.minReg = 16 ∧ outOfBounds s 0xFFF0 = false) ∧
    (let s : State := { base with maxReg := 4096 };
      s.maxReg.toNat ≤ 0x4021 ∧ s.minReg = 0 ∧ outOfBounds s 0xFFFF = true) := by
  decide +kernel

/-- A2 is 10 100 and more: the second codeword of table B, raw 4. -/
theorem test_witness_StepDecodesOnePixel :
    let s := decoding [0xA2]
    s.run = .active ∧ splitDue s = false ∧ 1 < (tableLengths tableB).length ∧
    codeLength tableB 1 = 2 ∧ payloadRawBits (codePayload tableB 1) = 3 ∧ 2 + 3 ≤ bitsLeft s ∧
    bitsAt s (bitPos s) 2 = codeword tableB 1 ∧ bitsAt s (bitPos s + 2) 3 = 4 ∧
    (pixelPred (recordDiff 3 0 4) s + s.minReg).toNat < s.maxReg.toNat ∧
    storeGet s.curve (min (pixelPred (recordDiff 3 0 4) s).toInt.toNat 0x3fff) = some 40 := by
  decide +kernel

/-- A decode under way with table D, which leaves slots unassigned. -/
def decodingD (bytes : List Byte) : State :=
  withData bytes
    { (hbuild 0 { base with cfg := params [tableD] }).state with
      bps := 12, height := 2, raww := 2, visw := 2, maxReg := 0x4001, run := .active }

theorem holdsTable_D : HoldsTable tableD (decodingD [0x60]) :=
  ⟨by decide +kernel, by decide +kernel, by decide +kernel, by decide +kernel,
    slotsOf_of_bounded (by decide +kernel) (by decide +kernel)⟩

/-- Four bits are left, of the five the record has; one bit, of the two its codeword has; none; and V14's 60 and 80, which
leave the codes of table D with the third bit and with the first. -/
theorem test_witness_StepOverTruncatedRecord :
    (let s : State := { decoding [0x0A] with bpBit := 4 };
      s.run = .active ∧ splitDue s = false ∧ 1 < (tableLengths tableB).length ∧ bitPos s ≤ 8 * s.srclen.toNat ∧
      codeLength tableB 1 ≤ bitsLeft s ∧
      bitsLeft s < codeLength tableB 1 + payloadRawBits (codePayload tableB 1) ∧
      bitsAt s (bitPos s) (codeLength tableB 1) = codeword tableB 1) ∧
    CodewordTruncated tableB { decoding [0x01] with bpBit := 7 } ∧ CodewordTruncated tableB (decoding []) ∧
    (decodingD [0x60]).run = .active ∧ splitDue (decodingD [0x60]) = false ∧
    UnassignedAt tableD (decodingD [0x60]) 3 ∧ UnassignedAt tableD (decodingD [0x80]) 1 := by
  decide +kernel

/-- At the split row with table C after the split. -/
def atSplit (tables : List PackedTable) : State :=
  { decoding [0xA2, 0xC0] with cfg := params tables, split := 1, row := 1, bpBit := 5 }

theorem test_witness_StepAtSplitRow :
    let s := atSplit [tableB, tableC]
    s.run = .active ∧ splitDue s = true ∧ s.tsel.toNat + 1 ≤ 5 ∧ Buildable (hromTable s (s.tsel.toNat + 1)) := by
  decide +kernel

theorem test_witness_SplitBuildFault :
    let s := atSplit [tableB, tab [1] [0x21]]
    s.run = .active ∧ splitDue s = true ∧ s.tsel.toNat + 1 ≤ 5 ∧ ¬ Buildable (hromTable s (s.tsel.toNat + 1)) := by
  decide +kernel

theorem test_witness_SplitWithoutTableStops :
    let s : State := { atSplit [tableB] with tsel := 5 }
    s.run = .active ∧ splitDue s = true ∧ 5 < s.tsel.toNat + 1 := by
  decide +kernel

/-- A step that goes on, and the last pixel's. -/
theorem test_witness_RunIsStepThenRun :
    inv (decoding [0]) = true ∧ (decoding [0]).run = .active ∧
    nextField (·.run) (exec .step (decoding [0])) = some .active ∧
    (let s : State := { decoding [0] with row := 1, col := 1 };
      inv s = true ∧ s.run = .active ∧ nextField (·.run) (exec .step s) = some .done) := by
  decide +kernel

theorem test_witness_RunEndsTheDecode : inv (decoding []) = true ∧ (decoding []).run = .active := by decide +kernel

theorem test_witness_ZeroResidualImage :
    let s := decoding [0]
    s.run = .active ∧ s.row = 0 ∧ s.col = 0 ∧ s.split = 0 ∧ s.bpByte = 0 ∧ s.bpBit = 0 ∧ s.minReg = 0 ∧
    s.lmargin = 0 ∧ s.visw = s.raww ∧ 0 < s.height.toNat ∧ 0 < s.raww.toNat ∧ 1 ≤ s.maxlen.toNat ∧ 1 ≤ s.fill.toNat ∧
    storeGet s.hslot 0 = some ⟨1, 0⟩ ∧ s.height.toNat * s.raww.toNat ≤ 8 * s.srclen.toNat ∧
    (∀ p < s.height.toNat * s.raww.toNat, dataBit s (p / 8) (p % 8) = false) ∧
    (∀ r c, (s.vpred r c).toNat < s.maxReg.toNat ∧ (s.vpred r c).toNat ≤ 0x3fff ∧
      storeGet s.curve (s.vpred r c).toNat = some (s.vpred r c)) := by
  decide +kernel

theorem test_witness_HbldBuildsTheTable :
    base.run = .idle ∧ Buildable (hromTable base 0) ∧
    (let s : State := { base with cfg := { base.cfg with hrom := candidateHrom } };
      s.run = .idle ∧ Buildable (hromTable s 5)) := by
  decide +kernel

/-- V13: no code, too many, and a third code that has no slot. -/
theorem test_witness_HbldBuildFaults :
    (base.run = .idle ∧ ¬ Buildable (hromTable base 5)) ∧
    (let s : State := { base with cfg := params [tab [2, 0, 0, 0, 15] []] };
      s.run = .idle ∧ ¬ Buildable (hromTable s 0)) ∧
    (let s : State := { base with cfg := params [tab [3] []] };
      s.run = .idle ∧ ¬ Buildable (hromTable s 0) ∧ FailsAt (hromTable s 0) 2 .oversubscribed) ∧
    (let s : State := { base with cfg := params [tab [1] [0x21]] };
      s.run = .idle ∧ ¬ Buildable (hromTable s 0) ∧ FailsAt (hromTable s 0) 0 .badPayload) := by
  decide +kernel

/-- A codeword that is there; one cut off after its first bit; and one that leaves the codes of table D. -/
theorem test_witness_HdecReadsTheCodeword :
    (let s := decoding [0xA2];
      s.run = .active ∧ 1 < (tableLengths tableB).length ∧ codeLength tableB 1 ≤ bitsLeft s ∧
      bitsAt s (bitPos s) (codeLength tableB 1) = codeword tableB 1) ∧
    CodewordTruncated tableB { decoding [0x01] with bpBit := 7 } ∧ UnassignedAt tableD (decodingD [0x60]) 3 := by
  decide +kernel

/-- The candidate tables (PRESUMED, log entry 6) meet R147; the fetch with one of them held can run out of DATA. -/
theorem test_witness_CompleteHromNeverFails :
    (let s : State := { base with bps := 12, cfg := { base.cfg with hrom := candidateHrom } };
      HromComplete s.cfg.hrom ∧ s.run = .idle ∧ (5 : Byte).toNat ≤ 5 ∧ startRefused s = false) ∧
    (let s : State := { placedT2 with srclen := 0 };
      s.cfg.hrom = candidateHrom ∧ hdec s = .raised (s.raise .dataExhausted)) := by
  decide +kernel

theorem holdsTable_complete : HoldsTable candidateHrom[2] { placedT2 with srclen := 0 } := holdsTable_T2

theorem test_witness_FlatDecoderAgrees : HoldsTable tableB (decoding [0xA2]) := holdsTable_B

/-- All the bits there are, none, and one more than there are. -/
theorem test_witness_RdbReadsBits :
    base.run = .idle ∧ (16 : Byte).toNat ≤ 16 ∧ (16 : Byte).toNat ≤ bitsLeft (withData [0xA2, 0x1D] base) ∧
    (0 : Byte).toNat ≤ bitsLeft base ∧
    (let s := withData [0xA2] base;
      (9 : Byte).toNat ≤ 16 ∧ bitsLeft s < (9 : Byte).toNat ∧ bitPos s ≤ 8 * s.srclen.toNat) := by
  decide +kernel

theorem test_witness_BrstAligns : base.run = .idle ∧ (decoding []).run = .active := by decide +kernel

theorem test_witness_CtrimTrims :
    (let s : State := { base with maxReg := 3, curve := [(0, 7), (1, 7), (2, 7)] };
      s.run = .idle ∧ s.maxReg.toNat ≤ 16385 ∧ ∀ j < s.maxReg.toNat, storeGet s.curve j = some 7) ∧
    (base.run = .idle ∧ base.maxReg.toNat = 0) := by
  decide +kernel

theorem test_witness_TrimIdempotent :
    ctrim { base with maxReg := 3, curve := [(0, 7), (1, 7), (2, 7)] } =
      .ok () { base with maxReg := 1, curve := [(0, 7), (1, 7), (2, 7)] } := by
  decide +kernel

/-- Two samples, and four samples that reach the last index exactly (`3 * 1365 + 1 = 4096`). -/
theorem test_witness_CintInterpolates :
    (let s : State := { base with bps := 12, csize := 2, curve := [(0, 5), (4096, 9)] };
      s.run = .idle ∧ 4096 / (2 - 1) = 4096 ∧ 4096 ≤ (2 - 1) * 4096 + 1 ∧
      ∀ k < 2, storeGet s.curve (k * 4096) = some (if k = 0 then 5 else 9)) ∧
    (let s : State := { base with bps := 12, csize := 4, curve := [(0, 5), (1365, 5), (2730, 5), (4095, 5)] };
      s.run = .idle ∧ 4096 / (4 - 1) = 1365 ∧ 4096 ≤ (4 - 1) * 1365 + 1 ∧
      ∀ k < 4, storeGet s.curve (k * 1365) = some 5) := by
  decide +kernel

/-- A LOSSY2 header with two samples and the split row at 18. -/
theorem test_witness_HdrLoadsLossy :
    let s := withMeta [0x44, 0x20, 0, 1, 0, 2, 0, 3, 0, 4, 0, 2, 0, 5, 0, 9, 0, 0, 0, 1]
    s.run = .idle ∧ s.bps = 12 ∧ hdrClass s.cfg (memRead s.metaMem 0) (memRead s.metaMem 1) = .lossy2 ∧
    (meta16 s 10).toNat = 2 ∧ 1 ≤ 4096 / (2 - 1) ∧ 4096 ≤ (2 - 1) * (4096 / (2 - 1)) + 1 ∧
    12 + 2 * 2 ≤ s.metalen.toNat ∧ s.cfg.splitOff + 2 ≤ s.metalen.toNat := by
  decide +kernel

/-- A DIRECT header with one sample, and with 0x4001 samples. -/
theorem test_witness_HdrLoadsDirect :
    (let s := withMeta [0x46, 0x30, 0, 1, 0, 2, 0, 3, 0, 4, 0, 1, 0, 5];
      s.run = .idle ∧ s.bps = 12 ∧ hdrClass s.cfg (memRead s.metaMem 0) (memRead s.metaMem 1) = .direct ∧
      (meta16 s 10).toNat = 1 ∧ 12 + 2 * 1 ≤ s.metalen.toNat) ∧
    (let s : State := { withMeta [0x46, 0x30, 0, 1, 0, 2, 0, 3, 0, 4, 0x40, 1] with metalen := 40000 };
      s.run = .idle ∧ s.bps = 12 ∧ hdrClass s.cfg (memRead s.metaMem 0) (memRead s.metaMem 1) = .direct ∧
      (meta16 s 10).toNat = 0x4001 ∧ 12 + 2 * 0x4001 ≤ s.metalen.toNat) := by
  decide +kernel

theorem test_witness_HdrRefusesUnknownClasses :
    (let s := withMeta [0x49, 0x58];
      s.run = .idle ∧ s.bps = 12 ∧ 2 ≤ s.metalen.toNat ∧
      hdrClass s.cfg (memRead s.metaMem 0) (memRead s.metaMem 1) = .fwupdate) ∧
    (let s := withMeta [0, 0];
      s.run = .idle ∧ s.bps = 12 ∧ 2 ≤ s.metalen.toNat ∧
      hdrClass s.cfg (memRead s.metaMem 0) (memRead s.metaMem 1) = .unknown) := by
  decide +kernel

/-- With and without a split row; MAX at its greatest. -/
theorem test_witness_StartBegins :
    (let s : State := { base with bps := 12, split := 3, maxReg := 0x4001 };
      s.run = .idle ∧ s.lossless = false ∧ s.maxReg.toNat ≤ 0x4001 ∧ Buildable (hromTable s 0)) ∧
    (let s : State := { base with bps := 14, lossless := true, cfg := { base.cfg with hrom := candidateHrom } };
      s.run = .idle ∧ s.split = 0 ∧ s.maxReg.toNat ≤ 0x4001 ∧ Buildable (hromTable s 5)) := by
  decide +kernel

/-- The refusals of START, HDR, CINT and HDEC, and START's build fault. -/
theorem test_witness_CommandRefusals :
    base.run = .idle ∧ base.bps ≠ 12 ∧ base.bps ≠ 14 ∧ base.csize.toNat < 2 ∧ base.tvalid = false ∧
    (let s : State := { base with bps := 12, maxReg := 0x4002, csize := 4098 };
      s.run = .idle ∧ 0x4001 < s.maxReg.toNat ∧ 2 ^ s.bps.toNat / (s.csize.toNat - 1) = 0) ∧
    (let s : State := { base with bps := 12, lossless := true, split := 1 };
      s.run = .idle ∧ s.lossless = true ∧ s.split ≠ 0) ∧
    (let s : State := { base with bps := 14, maxReg := 0x4001 };
      s.run = .idle ∧ s.lossless = false ∧ s.maxReg.toNat ≤ 0x4001 ∧ ¬ Buildable (hromTable s 3)) := by
  decide +kernel

/-- CTRIM over a hole at once (V23) and after one turn; CINT without a base at index 0 and without an end point at index 1. -/
theorem test_witness_CommandRefusals_curve :
    (let s : State := { base with maxReg := 3, curve := [(0, 1)] };
      s.run = .idle ∧ 3 ≤ s.maxReg.toNat ∧ storeGet s.curve 2 = none) ∧
    (let s : State := { base with maxReg := 3, curve := [(1, 5), (2, 5)] };
      2 ≤ s.maxReg.toNat ∧ storeGet s.curve 2 = some 5 ∧ storeGet s.curve 1 = some 5 ∧ storeGet s.curve 0 = none) ∧
    (let s : State := { base with bps := 12, csize := 2 };
      s.run = .idle ∧ 2 ≤ s.csize.toNat ∧ 1 ≤ 4096 / (s.csize.toNat - 1) ∧ storeGet s.curve (0 / 4096 * 4096) = none) ∧
    (let s : State := { base with bps := 12, csize := 2, curve := [(0, 5)] };
      storeGet s.curve (0 / 4096 * 4096) = some 5 ∧ 0 % 4096 = 0 ∧ 1 % 4096 ≠ 0 ∧
      storeGet s.curve ((1 / 4096 + 1) * 4096) = none) := by
  decide +kernel

/-- The class and the count of a header. -/
def headerOf (s : State) : HdrClass × Nat × Nat :=
  (hdrClass s.cfg (memRead s.metaMem 0) (memRead s.metaMem 1), (meta16 s 10).toNat, s.metalen.toNat)

/-- HDR, clause by clause: one byte; two and eleven bytes; counts of 1 (LOSSY2) and 0 (DIRECT); a count of 2 without
samples; 7 samples, which end at `6 * 682 + 1 < 4096`; and 2 samples with the split row at 18 cut off. -/
theorem test_witness_CommandRefusals_header :
    (withMeta [0x44]).run = .idle ∧ (withMeta [0x44]).bps = 12 ∧
    headerOf (withMeta [0x44]) = (.unknown, 0, 1) ∧ headerOf (withMeta [0x44, 0x20]) = (.lossy2, 0, 2) ∧
    headerOf (withMeta [0x46, 0x30, 0, 1, 0, 2, 0, 3, 0, 4, 0]) = (.direct, 0, 11) ∧
    headerOf (withMeta [0x44, 0x20, 0, 1, 0, 2, 0, 3, 0, 4, 0, 1]) = (.lossy2, 1, 12) ∧
    headerOf (withMeta [0x46, 0x30, 0, 1, 0, 2, 0, 3, 0, 4, 0, 0]) = (.direct, 0, 12) ∧
    headerOf (withMeta [0x44, 0x20, 0, 1, 0, 2, 0, 3, 0, 4, 0, 2]) = (.lossy2, 2, 12) ∧
    headerOf (withMeta [0x44, 0x20, 0, 1, 0, 2, 0, 3, 0, 4, 0, 7, 0, 0, 0, 0, 0, 0, 0, 0, 0, 0, 0, 0, 0, 0]) =
      (.lossy2, 7, 26) ∧ (7 - 1) * (4096 / (7 - 1)) + 1 < 4096 ∧
    headerOf (withMeta [0x44, 0x20, 0, 1, 0, 2, 0, 3, 0, 4, 0, 2, 0, 5, 0, 9]) = (.lossy2, 2, 16) ∧
    base.cfg.splitOff = 18 := by
  decide +kernel

theorem test_witness_CommandsRefusedByRunState :
    (decoding []).run = .active ∧ ({ base with run := .done } : State).run = .done ∧ base.run = .idle ∧
    (5 : Byte).toNat ≤ 5 ∧ (16 : Byte).toNat ≤ 16 := by
  decide +kernel

/-- Every address of the statement. -/
theorem test_witness_RegisterWriteReadsBack :
    ∀ addr ∈ ([0x06, 0x07, 0x08, 0x09, 0x0A, 0x0B, 0x0C, 0x0D, 0x0E, 0x10, 0x11, 0x12, 0x13, 0x15, 0x23, 0x24, 0x25,
      0x26, 0x28] : List Byte),
      base.run = .idle ∧ ({ base with hostIn := [.write addr 0xFFFF] } : State).hostIn = .write addr 0xFFFF :: [] := by
  decide +kernel

/-- CADDR at the last entry and one beyond. -/
theorem test_witness_CdataWrites :
    (let s : State := { base with hostIn := [.write 0x29 7], caddr := 16384 };
      s.run = .idle ∧ s.hostIn = .write 0x29 7 :: [] ∧ s.caddr.toNat ≤ 16384) ∧
    (let s : State := { base with hostIn := [.write 0x29 7], caddr := 16385 };
      s.run = .idle ∧ s.hostIn = .write 0x29 7 :: [] ∧ 16384 < s.caddr.toNat) := by
  decide +kernel

theorem test_witness_HostReadChangesNothing :
    (0x28 : Byte) ≠ 0x29 ∧
    (let s : State := { base with hostIn := [.read 0x29], caddr := 16384, curve := [(16384, 7)] };
      s.hostIn = .read 0x29 :: [] ∧ s.caddr.toNat ≤ 16384 ∧ storeGet s.curve s.caddr.toNat = some 7) ∧
    (let s : State := { base with hostIn := [.read 0x29], caddr := 16385 };
      s.hostIn = .read 0x29 :: [] ∧ 16384 < s.caddr.toNat) ∧
    storeGet base.curve base.caddr.toNat = none := by
  decide +kernel

/-- STATUS and the unmapped 0x27 are no RW registers; CDATA, the last of them, is one. -/
theorem test_witness_RegisterWriteRefusals :
    base.run ≠ .fault ∧ (0x01 : Byte) ≠ 0 ∧ (0x27 : Byte) ≠ 0 ∧
    (let readWrite : List Byte := [0x06, 0x07, 0x08, 0x09, 0x0A, 0x0B, 0x0C, 0x0D, 0x0E, 0x10, 0x11, 0x12, 0x13, 0x15,
        0x23, 0x24, 0x25, 0x26, 0x28, 0x29];
      0x01 ∉ readWrite ∧ 0x27 ∉ readWrite ∧ 0x29 ∈ readWrite) ∧
    (decoding []).run ≠ .fault ∧ (decoding []).run ≠ .idle ∧
    ({ decoding [] with hostIn := [.write 0x29 14] } : State).hostIn = .write 0x29 14 :: [] := by
  decide +kernel

/-- A state for the statements about a step: a decode under way, the host's next access STEP. -/
def beforeStep : State := { decoding [0xA2] with hostIn := [.write 0 0x0700] }

theorem test_witness_StepKeepsInvariant :
    inv beforeStep = true ∧ nextField (·.col) (step beforeStep) = some 1 := by decide +kernel

theorem test_witness_StepNeverStops : inv beforeStep = true ∧ inv base = true := by decide +kernel

theorem test_witness_InputsAreNeverWritten : nextField (·.data.length) (step beforeStep) = some 1 := by decide +kernel

theorem test_witness_RasterOnlyGrows : nextField (·.raster) (step beforeStep) = some [⟨0, 0, 40⟩] := by decide +kernel

/-- Both STEP and RUN, the latter over two rows. -/
theorem test_witness_RasterEventsInOrder :
    inv (decoding [0]) = true ∧ (decoding [0]).run = .active ∧
    nextField (fun s => s.raster.length) (exec .step (decoding [0])) = some 1 ∧
    nextField (fun s => s.raster.length) (exec .run (decoding [0])) = some 4 := by
  decide +kernel

theorem test_witness_ActiveKeepsConfiguration :
    beforeStep.run = .active ∧ nextIsReset beforeStep = false ∧ nextField (·.run) (step beforeStep) = some .active := by
  decide +kernel

/-- Both outcomes: MODE kept, and the transition. -/
theorem test_witness_SplitAtMostOnce :
    beforeStep.run = .active ∧ nextIsReset beforeStep = false ∧ nextField (·.mode) (step beforeStep) = some .normal ∧
    (let s : State := { atSplit [tableB, tableC] with hostIn := [.write 0 0x0700] };
      s.run = .active ∧ nextIsReset s = false ∧
        nextField (fun t => (t.mode, t.minReg, t.maxReg)) (step s) = some (.split, 16, 0x4021)) := by
  decide +kernel

theorem test_witness_BitPointerNeverGoesBack :
    inv beforeStep = true ∧ beforeStep.run = .active ∧ nextIsReset beforeStep = false ∧
    nextField bitPos (step beforeStep) = some 5 := by
  decide +kernel

theorem test_witness_RegisterAccessKeepsWorkingState :
    (let s : State := { decoding [] with hostIn := [.read 0x29] };
      nextIsRegisterAccess s = true ∧ nextField (·.run) (step s) = some .active) ∧
    (let s : State := { decoding [] with hostIn := [.write 0x06 14] };
      nextIsRegisterAccess s = true ∧ nextField (·.run) (step s) = some .fault) := by
  decide +kernel

end Sys2Proof.Tests
end

section
/-! PROOFS. What one step can do, said once: the effect of a command word outside FAULT (44_host_commands.md R233 to R247) and
the effect of serving one host access (R230 to R232). -/

namespace Sys2Proof.Machine

/-! ### The command words -/

/-- A command word is its opcode and its argument side by side (30_encoding.md R102). -/
theorem command_word_eq_append (w : Word) :
    w = BitVec.ofNat 8 (w.toNat / 256) ++ BitVec.ofNat 8 (w.toNat % 256) := by
  apply BitVec.eq_of_toNat_eq
  have hw := w.isLt
  rw [BitVec.toNat_append, ← Nat.shiftLeft_add_eq_or_of_lt (BitVec.isLt _), Nat.shiftLeft_eq,
    BitVec.toNat_ofNat, BitVec.toNat_ofNat]
  omega

/-- No bit of a command word is dropped: only a command decodes, and from its own word (30_encoding.md R104). -/
theorem encode_of_decodeCommand {w : Word} {i : Instr} (h : decodeCommand w = .ok i) : encode i = .cmd w := by
  unfold decodeCommand at h
  dsimp only at h
  rw [command_word_eq_append w]
  split at h
  case h_13 => cases h
  all_goals
    rename_i hop
    split at h
    · rename_i harg
      cases h
      simp [encode, hop, harg]
    · cases h

/-! ### The gates -/

theorem allowIdle_iff {r : RunState} : allowIdle r = true ↔ r = .idle := by
  cases r <;> simp [allowIdle]

theorem allowActive_iff {r : RunState} : allowActive r = true ↔ r = .active := by
  cases r <;> simp [allowActive]

theorem allowIdleActive_iff {r : RunState} : allowIdleActive r = true ↔ r = .idle ∨ r = .active := by
  cases r <;> simp [allowIdleActive]

theorem pixOutcome_eq_next {r : Except Fault State} {t : State} : pixOutcome r = .next t ↔ r = .ok t := by
  cases r <;> simp [pixOutcome]

/-! ### The effect of a command -/

/-- What the command word `w`, written outside FAULT in the state `s`, may answer: one constructor for each meaning of
44_host_commands.md R234 to R247, with the state of RUN its gate asks for (R240). -/
inductive CommandEffect (w : Word) (s : State) : State → Prop
  | nop : CommandEffect w s s
  | reset (hw : w = 0x0100) : CommandEffect w s (resetAll s)
  | refused (c : FaultCause) (hc : c = .badCmd ∨ c = .badState) : CommandEffect w s (s.raise c)
  | hdr (hrun : s.run = .idle) : CommandEffect w s (hdrParse s).state
  | cint (hrun : s.run = .idle) : CommandEffect w s (curveInterpolate s).state
  | ctrim (hrun : s.run = .idle) : CommandEffect w s (ctrim s).state
  | hbld (hrun : s.run = .idle) (n : Byte) (hn : n.toNat ≤ 5) : CommandEffect w s (hbuild n.toNat s).state
  | startRefused (hrun : s.run = .idle) (hs : startRefused s = true) : CommandEffect w s (s.raise .badConfig)
  | start (hrun : s.run = .idle) (hs : startRefused s = false) : CommandEffect w s (startDecode s).state
  | step (hrun : s.run = .active) {t : State} (ht : pixStep s = .ok t) : CommandEffect w s t
  | run (hrun : s.run = .active) {t : State} (ht : runLoop runFuel s = .ok t) : CommandEffect w s t
  | brst (hrun : s.run = .idle ∨ s.run = .active) : CommandEffect w s (brreset s)
  | rdb (hrun : s.run = .idle ∨ s.run = .active) (n : Byte) (hn : n.toNat ≤ 16) :
    CommandEffect w s
      ((rdbits n.toNat s).bind fun v s1 => .ok () { s1 with result := BitVec.ofNat 16 v }).state
  | noTable (hrun : s.run = .idle ∨ s.run = .active) (hv : s.tvalid = false) : CommandEffect w s (s.raise .noTable)
  | hdec (hrun : s.run = .idle ∨ s.run = .active) (hv : s.tvalid = true) :
    CommandEffect w s ((hdec s).bind fun sym s1 => .ok () { s1 with result := sym.payload.setWidth 16 }).state

/-- Outside FAULT a gated command is refused, or has the effect of its body. -/
theorem CommandEffect.of_gate {w : Word} {s t : State} {allow : RunState → Bool}
    {body : Host.Outcome State Fault Refusal} (hf : s.run ≠ .fault) (h : gate allow s body = .next t)
    (hbody : allow s.run = true → body = .next t → CommandEffect w s t) : CommandEffect w s t := by
  rcases gate_cases h with ⟨hrun, -⟩ | ⟨-, hallow, hnext⟩ | ⟨-, -, rfl⟩
  · exact absurd hrun hf
  · exact hbody hallow hnext
  · exact .refused .badState (.inr rfl)

/-- The instruction of a command word has one of the effects listed. -/
theorem exec_effect {w : Word} {i : Instr} {s t : State} (hw : encode i = .cmd w) (hf : s.run ≠ .fault)
    (h : exec i s = .next t) : CommandEffect w s t := by
  cases i with
  | nop => exact .of_gate hf h fun _ e => by cases e; exact .nop
  | reset => cases hw; cases h; exact .reset rfl
  | hdr => exact .of_gate hf h fun ha e => by cases e; exact .hdr (allowIdle_iff.mp ha)
  | cint => exact .of_gate hf h fun ha e => by cases e; exact .cint (allowIdle_iff.mp ha)
  | ctrim => exact .of_gate hf h fun ha e => by cases e; exact .ctrim (allowIdle_iff.mp ha)
  | hbld n =>
    change execHbld n s = _ at h
    unfold execHbld at h
    rw [if_neg hf] at h
    split at h
    · cases h; exact .refused .badCmd (.inl rfl)
    · exact .of_gate hf h fun ha e => by cases e; exact .hbld (allowIdle_iff.mp ha) n (by omega)
  | start =>
    refine .of_gate hf h fun ha e => ?_
    cases hs : startRefused s <;> rw [hs] at e <;> cases e
    · exact .start (allowIdle_iff.mp ha) hs
    · exact .startRefused (allowIdle_iff.mp ha) hs
  | step => exact .of_gate hf h fun ha e => .step (allowActive_iff.mp ha) (pixOutcome_eq_next.mp e)
  | run => exact .of_gate hf h fun ha e => .run (allowActive_iff.mp ha) (pixOutcome_eq_next.mp e)
  | brst => exact .of_gate hf h fun ha e => by cases e; exact .brst (allowIdleActive_iff.mp ha)
  | rdb n =>
    change execRdb n s = _ at h
    unfold execRdb at h
    rw [if_neg hf] at h
    split at h
    · cases h; exact .refused .badCmd (.inl rfl)
    · exact .of_gate hf h fun ha e => by cases e; exact .rdb (allowIdleActive_iff.mp ha) n (by omega)
  | hdec =>
    refine .of_gate hf h fun ha e => ?_
    cases hv : s.tvalid <;> rw [hv] at e <;> cases e
    · exact .noTable (allowIdleActive_iff.mp ha) hv
    · exact .hdec (allowIdleActive_iff.mp ha) hv
  | _ => cases hw

/-- A command word outside FAULT has one of the effects listed (R233). -/
theorem command_effect {w : Word} {s t : State} (hf : s.run ≠ .fault) (h : command w s = .next t) :
    CommandEffect w s t := by
  rcases command_cases w s with ⟨i, hi, e⟩ | ⟨_, -, e⟩ <;> rw [e] at h
  · exact exec_effect (encode_of_decodeCommand hi) hf h
  · cases h; exact .refused .badCmd (.inl rfl)

/-! ### The effect of a step -/

theorem step_write {s : State} {addr : Byte} {v : Word} {rest : List HostAccess}
    (h : s.hostIn = .write addr v :: rest) : step s = hostWrite addr v { s with hostIn := rest } := by
  simp [step, serve, h]

theorem step_hardReset {s : State} {rest : List HostAccess} (h : s.hostIn = .hardReset :: rest) :
    step s = .next (resetAll { s with hostIn := rest }) := by
  simp [step, serve, h]

/-- A write to a register other than CMD, outside FAULT, is that register's write. -/
theorem step_regWrite {s : State} {addr : Byte} {v : Word} {rest : List HostAccess} (hf : s.run ≠ .fault)
    (ha : addr ≠ 0) (hin : s.hostIn = .write addr v :: rest) :
    step s = .next (regWrite addr.toNat v { s with hostIn := rest }) := by
  rw [step_write hin, hostWrite, if_neg hf, if_neg ha]

/-- What a step may answer, by the access it serves: each constructor names the access and the state of RUN
(44_host_commands.md R230 to R232, 70_reset_and_hazards.md R300). -/
inductive StepEffect (s : State) : State → Prop
  | waits (hin : s.hostIn = []) : StepEffect s s
  | hardReset {rest : List HostAccess} (hin : s.hostIn = .hardReset :: rest) :
    StepEffect s (resetAll { s with hostIn := rest })
  | read {addr : Byte} {rest : List HostAccess} (hin : s.hostIn = .read addr :: rest) :
    StepEffect s (serveRead addr.toNat { s with hostIn := rest })
  | faultReset {rest : List HostAccess} (hin : s.hostIn = .write 0 0x0100 :: rest) (hf : s.run = .fault) :
    StepEffect s (resetAll { s with hostIn := rest })
  | ignored {addr : Byte} {v : Word} {rest : List HostAccess} (hin : s.hostIn = .write addr v :: rest)
    (hf : s.run = .fault) (hw : ¬(addr = 0 ∧ v = 0x0100)) : StepEffect s { s with hostIn := rest }
  | command {v : Word} {rest : List HostAccess} {t : State} (hin : s.hostIn = .write 0 v :: rest)
    (hf : s.run ≠ .fault) (he : CommandEffect v { s with hostIn := rest } t) : StepEffect s t
  | regWrite {addr : Byte} {v : Word} {rest : List HostAccess} (hin : s.hostIn = .write addr v :: rest)
    (hf : s.run ≠ .fault) (ha : addr ≠ 0) : StepEffect s (regWrite addr.toNat v { s with hostIn := rest })

/-- A step that answers a state has one of the effects listed. -/
theorem step_effect {s t : State} (h : step s = .next t) : StepEffect s t := by
  rcases step_cases s with ⟨hin, e⟩ | ⟨addr, v, rest, hin, e⟩ | ⟨addr, rest, hin, e⟩ | ⟨rest, hin, e⟩ <;> rw [e] at h
  · cases h; exact .waits hin
  · rcases hostWrite_cases addr v { s with hostIn := rest } with
      ⟨hf, rfl, rfl, e'⟩ | ⟨hf, hw, e'⟩ | ⟨hf, rfl, e'⟩ | ⟨hf, ha, e'⟩ <;> rw [e'] at h
    · cases h; exact .faultReset hin hf
    · cases h; exact .ignored hin hf hw
    · exact .command hin hf (command_effect hf h)
    · cases h; exact .regWrite hin hf ha
  · cases h; exact .read hin
  · cases h; exact .hardReset hin

end Sys2Proof.Machine
end

section
/-! PROOFS. What the units may write, said once for each: the header and curve unit, the decoder with its bit reader and
tables, and the host's register accesses. `t = { s with f := t.f }` says that `t` differs from `s` in `f` alone. -/

namespace Sys2Proof.Machine

/-- What every part of a sequence keeps, the whole keeps. -/
theorem Res.state_bind_of_keeps {α β : Type} {P : State → Prop} {r : Res α} {f : α → State → Res β}
    (h : P r.state) (hf : ∀ a s, P s → P (f a s).state) : P (r.bind f).state :=
  Res.state_bind h fun a s e => hf a s (by rw [e] at h; exact h)

/-! ### The header and curve unit -/

/-- `t` differs from `s` in what HDR, CINT and CTRIM may write: the header's registers, MAX, the curve, and the fault record
with RUN (42_curve.md R165 to R173). -/
def HeaderOnly (s t : State) : Prop :=
  t = { s with
    ver := t.ver, vseed0 := t.vseed0, vseed1 := t.vseed1, vseed2 := t.vseed2, vseed3 := t.vseed3, csize := t.csize
    split := t.split, lossless := t.lossless, maxReg := t.maxReg, curve := t.curve
    run := t.run, kind := t.kind, cause := t.cause, frow := t.frow, fcol := t.fcol }

theorem HeaderOnly.trans {s t u : State} (h : HeaderOnly s t) (h' : HeaderOnly t u) : HeaderOnly s u := by
  unfold HeaderOnly at h h' ⊢
  rw [h] at h'
  exact h'

theorem HeaderOnly.raise {s t : State} (h : HeaderOnly s t) (c : FaultCause) : HeaderOnly s (t.raise c) :=
  h.trans rfl

theorem CurveOnly.headerOnly {s : State} {r : Res Unit} (h : CurveOnly s r) : HeaderOnly s r.state := by
  obtain ⟨curve, rfl | ⟨c, -, rfl⟩⟩ := h <;> rfl

theorem metaRead8_headerOnly (a : Nat) (s : State) : HeaderOnly s (metaRead8 a s).state := by
  rcases metaRead8_cases a s with ⟨-, h⟩ | ⟨-, h⟩ <;> rw [h] <;> rfl

theorem metaRead16_headerOnly (a : Nat) (s : State) : HeaderOnly s (metaRead16 a s).state := by
  rcases metaRead16_cases a s with ⟨-, h⟩ | ⟨-, h⟩ <;> rw [h] <;> rfl

theorem interp_headerOnly (m n : Nat) (s : State) : HeaderOnly s (interp m n s).state := by
  obtain ⟨curve, h | ⟨c, -, h⟩⟩ := interp_cases m n s <;> rw [h] <;> rfl

theorem ctrim_headerOnly (s : State) : HeaderOnly s (ctrim s).state := by
  obtain ⟨m, -, h | h⟩ := ctrimFrom_frame s.maxReg.toNat s <;> rw [ctrim, h] <;> rfl

/-- A sequence keeps to the header's state if its first part does and the rest does from every state. -/
theorem HeaderOnly.bind {α β : Type} {s : State} {r : Res α} {f : α → State → Res β} (h : HeaderOnly s r.state)
    (hf : ∀ a t, HeaderOnly t (f a t).state) : HeaderOnly s (r.bind f).state :=
  Res.state_bind_of_keeps h fun a t ht => ht.trans (hf a t)

theorem hdrSeeds_headerOnly (s : State) : HeaderOnly s (hdrSeeds s).state :=
  (metaRead16_headerOnly 2 s).bind fun a s => .trans (t := { s with vseed0 := a }) rfl <|
    (metaRead16_headerOnly 4 _).bind fun b s => .trans (t := { s with vseed1 := b }) rfl <|
      (metaRead16_headerOnly 6 _).bind fun c s => .trans (t := { s with vseed2 := c }) rfl <|
        (metaRead16_headerOnly 8 _).bind fun d s => .trans (t := { s with vseed3 := d }) rfl <|
          (metaRead16_headerOnly 10 _).bind fun _ _ => rfl

theorem loadL2_headerOnly (s : State) : HeaderOnly s (loadL2 s).state := by
  unfold loadL2
  split
  · rfl
  · exact HeaderOnly.bind (.trans (t := curveClear s) rfl (loadSamples_curveOnly _ _ _ _).headerOnly) fun _ s1 =>
      (interp_headerOnly _ _ s1).bind fun _ s2 => (metaRead16_headerOnly _ s2).bind fun _ _ => rfl

theorem loadDir_headerOnly (s : State) : HeaderOnly s (loadDir s).state := by
  unfold loadDir
  split
  · rfl
  · exact HeaderOnly.bind (.trans (t := curveClear s) rfl (loadSamples_curveOnly _ _ _ _).headerOnly) fun _ _ => rfl

theorem hdrBody_headerOnly {load : State → Res Unit} (hload : ∀ s, HeaderOnly s (load s).state) (s : State) :
    HeaderOnly s (hdrBody load s).state :=
  (hdrSeeds_headerOnly s).bind fun _ s1 => (hload s1).bind fun _ s2 => ctrim_headerOnly s2

theorem hdrParse_headerOnly (s : State) : HeaderOnly s (hdrParse s).state := by
  unfold hdrParse
  split
  · refine (metaRead8_headerOnly 0 s).bind fun v0 s => (metaRead8_headerOnly 1 s).bind fun v1 s => ?_
    refine .trans (t := { s with ver := v0 ++ v1 }) rfl ?_
    dsimp only
    split
    · rfl
    · rfl
    · exact hdrBody_headerOnly loadL2_headerOnly _
    · exact hdrBody_headerOnly loadDir_headerOnly _
  · rfl

theorem curveInterpolate_headerOnly (s : State) : HeaderOnly s (curveInterpolate s).state := by
  unfold curveInterpolate
  split
  · split
    · rfl
    · exact interp_headerOnly _ _ s
  · rfl

/-! ### The decoder -/

/-- `t` differs from `s` in what the decoder with its bit reader and tables may write: lanes, BP, position, MODE, MIN and MAX,
the table registers, RESULT, the raster, and the fault record with RUN (43_predictive.md R190 to R206). -/
def DecodeOnly (s t : State) : Prop :=
  t = { s with
    vpred00 := t.vpred00, vpred01 := t.vpred01, vpred10 := t.vpred10, vpred11 := t.vpred11
    hpred0 := t.hpred0, hpred1 := t.hpred1, bpByte := t.bpByte, bpBit := t.bpBit, row := t.row, col := t.col
    mode := t.mode, minReg := t.minReg, maxReg := t.maxReg
    tvalid := t.tvalid, tsel := t.tsel, maxlen := t.maxlen, fill := t.fill, hslot := t.hslot
    result := t.result, raster := t.raster
    run := t.run, kind := t.kind, cause := t.cause, frow := t.frow, fcol := t.fcol }

theorem DecodeOnly.refl (s : State) : DecodeOnly s s := rfl

theorem DecodeOnly.trans {s t u : State} (h : DecodeOnly s t) (h' : DecodeOnly t u) : DecodeOnly s u := by
  unfold DecodeOnly at h h' ⊢
  rw [h] at h'
  exact h'

theorem DecodeOnly.raise {s t : State} (h : DecodeOnly s t) (c : FaultCause) : DecodeOnly s (t.raise c) :=
  h.trans rfl

/-- A sequence keeps to the decoder's state if its first part does and the rest does from every state. -/
theorem DecodeOnly.bind {α β : Type} {s : State} {r : Res α} {f : α → State → Res β} (h : DecodeOnly s r.state)
    (hf : ∀ a t, DecodeOnly t (f a t).state) : DecodeOnly s (r.bind f).state :=
  Res.state_bind_of_keeps h fun a t ht => ht.trans (hf a t)

theorem rdbits_decodeOnly (n : Nat) (s : State) : DecodeOnly s (rdbits n s).state := by
  rcases rdbits_bpOnly n s with ⟨_, _, _, h⟩ | ⟨_, _, h⟩ <;> rw [h] <;> rfl

theorem brreset_decodeOnly (s : State) : DecodeOnly s (brreset s) := by
  rw [brreset_eq]; rfl

theorem hdec_decodeOnly (s : State) : DecodeOnly s (hdec s).state := by
  rcases hdec_frame s with ⟨_, _, _, h⟩ | ⟨_, _, _, -, h⟩ <;> rw [h] <;> rfl

theorem fetchRecord_decodeOnly (s : State) : DecodeOnly s (fetchRecord s).state := by
  rcases fetchRecord_frame s with ⟨_, _, _, h⟩ | ⟨_, _, _, -, h⟩ <;> rw [h] <;> rfl

theorem hbuild_decodeOnly (n : Nat) (s : State) : DecodeOnly s (hbuild n s).state := by
  rcases hbuild_cases n s with ⟨_, _, h⟩ | ⟨_, _, _, -, h⟩ <;> rw [h] <;> rfl

theorem predUpd_decodeOnly (diff : Int) (s : State) : DecodeOnly s (predUpd diff s).2 := by
  obtain ⟨_, _, _, _, _, _, h⟩ := predUpd_frame diff s
  rw [h]; rfl

theorem emit_decodeOnly (v : Word) (s : State) : DecodeOnly s (emit v s) := by
  rcases emit_cases v s with ⟨-, h⟩ | ⟨-, h⟩ <;> rw [h] <;> rfl

theorem advance_decodeOnly (s : State) : DecodeOnly s (advance s) := by
  rcases advance_cases s with ⟨-, h⟩ | ⟨-, -, h⟩ | ⟨-, -, h⟩ <;> rw [h] <;> rfl

theorem pixelRecord_decodeOnly (len shl raw : Nat) (s : State) : DecodeOnly s (pixelRecord len shl raw s).state := by
  have hu := predUpd_decodeOnly (residual len shl raw) s
  rcases pixelRecord_cases len shl raw s with ⟨-, h⟩ | ⟨-, -, h⟩ | ⟨v, -, -, h⟩ <;> rw [h]
  · exact hu.raise _
  · exact hu.raise _
  · exact (hu.trans (emit_decodeOnly v _)).trans (advance_decodeOnly _)

theorem pixBody_decodeOnly (s : State) : DecodeOnly s (pixBody s).state :=
  (fetchRecord_decodeOnly s).bind fun _ t => pixelRecord_decodeOnly _ _ _ t

theorem splitTrans_decodeOnly (s : State) : DecodeOnly s (splitTrans s).state :=
  (DecodeOnly.trans (brreset_decodeOnly s) (hbuild_decodeOnly _ _)).bind fun _ _ => rfl

theorem startDecode_decodeOnly (s : State) : DecodeOnly s (startDecode s).state :=
  (hbuild_decodeOnly _ s).bind fun _ _ => rfl

theorem pixStep_decodeOnly {s t : State} (h : pixStep s = .ok t) : DecodeOnly s t := by
  rcases pixStep_cases h with ⟨-, rfl⟩ | ⟨-, -, hs | ⟨s1, hs, rfl⟩⟩
  · exact pixBody_decodeOnly s
  · simpa [hs] using splitTrans_decodeOnly s
  · have h1 : DecodeOnly s s1 := by simpa [hs] using splitTrans_decodeOnly s
    exact h1.trans (pixBody_decodeOnly s1)

theorem runLoop_decodeOnly {n : Nat} {s t : State} (h : runLoop n s = .ok t) : DecodeOnly s t :=
  runLoop_keeps (P := DecodeOnly s) (fun _ _ _ hp hs => hs.trans (pixStep_decodeOnly hp)) h (.refl s)

/-! ### The host's register accesses -/

/-- `t` differs from `s` in what a register access may write: the RW registers, CADDR, the curve, the fault record with RUN,
and the model's own fields (44_host_commands.md R230 to R232). -/
def RegisterOnly (s t : State) : Prop :=
  t = { s with
    bps := t.bps, lossless := t.lossless, height := t.height, raww := t.raww, visw := t.visw, lmargin := t.lmargin
    split := t.split, csize := t.csize, ver := t.ver
    vseed0 := t.vseed0, vseed1 := t.vseed1, vseed2 := t.vseed2, vseed3 := t.vseed3
    maxReg := t.maxReg, srclen := t.srclen, metalen := t.metalen, caddr := t.caddr, curve := t.curve
    run := t.run, kind := t.kind, cause := t.cause, frow := t.frow, fcol := t.fcol
    hostIn := t.hostIn, hostOut := t.hostOut, draws := t.draws }

theorem RegisterOnly.trans {s t u : State} (h : RegisterOnly s t) (h' : RegisterOnly t u) : RegisterOnly s u := by
  unfold RegisterOnly at h h' ⊢
  rw [h] at h'
  exact h'

theorem regStore_registerOnly (addr : Nat) (v : Word) (s : State) : RegisterOnly s (regStore addr v s) := by
  unfold regStore
  split <;> rfl

theorem regWrite_registerOnly (addr : Nat) (v : Word) (s : State) : RegisterOnly s (regWrite addr v s) := by
  rcases regWrite_cases addr v s with ⟨-, h⟩ | ⟨-, -, h⟩ | ⟨-, -, -, h⟩ | ⟨-, -, -, h⟩ | ⟨-, -, -, h⟩ <;> rw [h]
  case inr.inr.inr.inr => exact regStore_registerOnly addr v s
  all_goals rfl

/-- A host read moves no field but the model's own count of free values (R231, 10_state.md R35). -/
theorem hostRead_frame (addr : Nat) (s : State) : ∃ n, (hostRead addr s).2 = { s with draws := n } := by
  unfold hostRead
  split
  · split
    · exact ⟨s.draws, rfl⟩
    · exact ⟨s.draws + 1, rfl⟩
  · exact ⟨s.draws, rfl⟩

theorem serveRead_frame (addr : Nat) (s : State) :
    ∃ n, serveRead addr s = { s with draws := n, hostOut := s.hostOut ++ [(hostRead addr s).1] } := by
  obtain ⟨n, h⟩ := hostRead_frame addr s
  refine ⟨n, ?_⟩
  unfold serveRead
  dsimp only
  rw [h]

theorem serveRead_registerOnly (addr : Nat) (s : State) : RegisterOnly s (serveRead addr s) := by
  obtain ⟨n, h⟩ := serveRead_frame addr s
  rw [h]; rfl

end Sys2Proof.Machine
end

section
/-! PROOFS. The statements of 10_state.md, from the effect of a step and the frames of its parts. -/

namespace Sys2Proof.Machine

/-! ### FAULT and DONE are left by reset alone -/

@[simp] theorem regStore_run (addr : Nat) (v : Word) (s : State) : (regStore addr v s).run = s.run := by
  unfold regStore
  split <;> rfl

theorem regWrite_run_cases (addr : Nat) (v : Word) (s : State) :
    (regWrite addr v s).run = s.run ∨ (regWrite addr v s).run = .fault := by
  rcases regWrite_cases addr v s with ⟨-, h⟩ | ⟨-, -, h⟩ | ⟨-, -, -, h⟩ | ⟨-, -, -, h⟩ | ⟨-, -, -, h⟩ <;> rw [h] <;> simp

@[simp] theorem serveRead_run (addr : Nat) (s : State) : (serveRead addr s).run = s.run := by
  obtain ⟨n, h⟩ := serveRead_frame addr s
  rw [h]

/-- In DONE every command but NOP and RESET is refused (44_host_commands.md R240). -/
theorem CommandEffect.run_of_done {w : Word} {s t : State} (h : CommandEffect w s t) (hd : s.run = .done)
    (hw : w ≠ 0x0100) : t.run = .done ∨ t.run = .fault := by
  cases h with
  | nop => exact .inl hd
  | reset hr => exact absurd hr hw
  | refused c => exact .inr rfl
  | hdr hrun | cint hrun | ctrim hrun | hbld hrun | startRefused hrun | start hrun | step hrun | run hrun | brst hrun
  | rdb hrun | noTable hrun | hdec hrun => simp [hd] at hrun

/-- Settles O6: the access a step serves is ignored, refused, or touches RUN through a fault alone. -/
theorem onlyResetLeavesFaultAndDone : Obligations.OnlyResetLeavesFaultAndDone := by
  intro s t h hn
  cases step_effect h with
  | waits => exact ⟨id, .inl⟩
  | hardReset hin => simp [nextIsReset, hin] at hn
  | read => exact ⟨fun hf => by simpa using hf, fun hd => .inl (by simpa using hd)⟩
  | faultReset hin => simp [nextIsReset, hin] at hn
  | ignored => exact ⟨id, .inl⟩
  | command hin hf he =>
    exact ⟨fun hf' => absurd hf' hf, fun hd => he.run_of_done hd (by simpa [nextIsReset, hin] using hn)⟩
  | @regWrite addr v rest hin hf =>
    exact ⟨fun hf' => absurd hf' hf, fun hd => (regWrite_run_cases _ v { s with hostIn := rest }).imp_left (·.trans hd)⟩

/-! ### The inputs -/

/-- `t` has the parameters, DATA and META of `s` (10_state.md R36, R40). -/
def KeepsInputs (s t : State) : Prop := t.cfg = s.cfg ∧ t.data = s.data ∧ t.metaMem = s.metaMem

theorem HeaderOnly.keepsInputs {s t : State} (h : HeaderOnly s t) : KeepsInputs s t := by
  rw [h]; exact ⟨rfl, rfl, rfl⟩

theorem DecodeOnly.keepsInputs {s t : State} (h : DecodeOnly s t) : KeepsInputs s t := by
  rw [h]; exact ⟨rfl, rfl, rfl⟩

theorem RegisterOnly.keepsInputs {s t : State} (h : RegisterOnly s t) : KeepsInputs s t := by
  rw [h]; exact ⟨rfl, rfl, rfl⟩

theorem resetAll_keepsInputs (s : State) : KeepsInputs s (resetAll s) := ⟨rfl, rfl, rfl⟩

/-- A command outside FAULT resets the block, or, in IDLE, keeps to the header's state, or keeps to the decoder's. -/
theorem CommandEffect.touches {w : Word} {s t : State} (h : CommandEffect w s t) :
    (w = 0x0100 ∧ t = resetAll s) ∨ (s.run = .idle ∧ HeaderOnly s t) ∨ DecodeOnly s t := by
  cases h with
  | nop => exact .inr (.inr (.refl s))
  | reset hw => exact .inl ⟨hw, rfl⟩
  | refused c => exact .inr (.inr (DecodeOnly.refl s |>.raise c))
  | hdr hrun => exact .inr (.inl ⟨hrun, hdrParse_headerOnly s⟩)
  | cint hrun => exact .inr (.inl ⟨hrun, curveInterpolate_headerOnly s⟩)
  | ctrim hrun => exact .inr (.inl ⟨hrun, ctrim_headerOnly s⟩)
  | hbld hrun n => exact .inr (.inr (hbuild_decodeOnly _ s))
  | startRefused => exact .inr (.inr (DecodeOnly.refl s |>.raise _))
  | start => exact .inr (.inr (startDecode_decodeOnly s))
  | step hrun ht => exact .inr (.inr (pixStep_decodeOnly ht))
  | run hrun ht => exact .inr (.inr (runLoop_decodeOnly ht))
  | brst => exact .inr (.inr (brreset_decodeOnly s))
  | rdb hrun n => exact .inr (.inr ((rdbits_decodeOnly _ s).bind fun _ _ => rfl))
  | noTable => exact .inr (.inr (DecodeOnly.refl s |>.raise _))
  | hdec => exact .inr (.inr ((hdec_decodeOnly s).bind fun _ _ => rfl))

theorem CommandEffect.keepsInputs {w : Word} {s t : State} (h : CommandEffect w s t) : KeepsInputs s t := by
  rcases h.touches with ⟨-, rfl⟩ | ⟨-, hh⟩ | hd
  · exact resetAll_keepsInputs s
  · exact hh.keepsInputs
  · exact hd.keepsInputs

/-- Settles O53, by the access the step serves. -/
theorem inputsAreNeverWritten : Obligations.InputsAreNeverWritten := by
  intro s t h
  change KeepsInputs s t
  cases step_effect h with
  | waits => exact ⟨rfl, rfl, rfl⟩
  | @hardReset rest => exact resetAll_keepsInputs { s with hostIn := rest }
  | @read addr rest => exact (serveRead_registerOnly addr.toNat { s with hostIn := rest }).keepsInputs
  | @faultReset rest => exact resetAll_keepsInputs { s with hostIn := rest }
  | ignored => exact ⟨rfl, rfl, rfl⟩
  | command hin hf he => exact he.keepsInputs
  | @regWrite addr v rest => exact (regWrite_registerOnly addr.toNat v { s with hostIn := rest }).keepsInputs

/-! ### Register accesses -/

/-- A step whose next access is a register access keeps to what such an access may write. -/
theorem step_registerOnly {s t : State} (hn : nextIsRegisterAccess s = true) (h : step s = .next t) :
    RegisterOnly s t := by
  cases step_effect h with
  | waits => rfl
  | hardReset hin => simp [nextIsRegisterAccess, hin] at hn
  | @read addr rest => exact .trans (t := { s with hostIn := rest }) rfl (serveRead_registerOnly _ _)
  | faultReset hin => simp [nextIsRegisterAccess, hin] at hn
  | ignored => rfl
  | command hin => simp [nextIsRegisterAccess, hin] at hn
  | @regWrite addr v rest => exact .trans (t := { s with hostIn := rest }) rfl (regWrite_registerOnly _ _ _)

/-- Settles O59: none of the fields named is among those a register access may write. -/
theorem registerAccessKeepsWorkingState : Obligations.RegisterAccessKeepsWorkingState := by
  intro s t hn h
  rw [step_registerOnly hn h]
  simp only [and_self]

/-! ### Reset values -/

/-- Settles O1: RESET and the hard reset input are both RESETALL (70_reset_and_hazards.md R300). -/
theorem resetValues : Obligations.ResetValues := by
  intro s
  refine ⟨rfl, fun rest hin => ?_⟩
  rw [step_hardReset hin]
  rfl

/-! ### STATUS and FAULT as read -/

theorem Mode.code_eq (m : Mode) : m.code = if m = .split then 1 else 0 := by
  cases m <;> rfl

theorem RunState.code_eq (r : RunState) :
    r.code = if r = .idle then 0 else if r = .active then 1 else if r = .done then 2 else 3 := by
  cases r <;> rfl

/-- The three fields of STATUS do not overlap (10_state.md R30). -/
theorem statusWord_toNat (s : State) :
    (statusWord s).toNat = 8 * s.tvalid.toNat + 4 * s.mode.code + s.run.code := by
  have hv := s.tvalid.toNat_le
  have hm : s.mode.code ≤ 1 := by rw [Mode.code_eq]; split <;> decide
  have hr : s.run.code ≤ 3 := by rw [RunState.code_eq]; split_ifs <;> decide
  unfold statusWord
  rw [BitVec.toNat_ofNat]
  omega

/-- After a fault the FAULT register shows the cause and the kind it refines (60_exceptions.md R262, R270). -/
theorem faultWord_raise (s : State) (c : FaultCause) :
    faultWord (s.raise c) = BitVec.ofNat 16 (256 * c.code + c.kind.code) := rfl

/-- Settles O4: STATUS by its three fields, FAULT by evaluating the codes of each of the seventeen causes. -/
theorem statusAndFaultWords : Obligations.StatusAndFaultWords := by
  intro s
  refine ⟨?_, ?_⟩
  · change (statusWord s).toNat = _
    rw [statusWord_toNat, Mode.code_eq, RunState.code_eq]
  · simp [regRead, faultWord_raise, FaultCause.code, FaultCause.kind, FaultKind.code]

/-! ### The split without a table -/

/-- Settles O27: STEP is allowed in ACTIVE, and its row-start check stops. -/
theorem splitWithoutTableStops : Obligations.SplitWithoutTableStops := by
  intro s hrun hdue ht
  change gate allowActive s (pixOutcome (pixStep s)) = _
  rw [gate_allowed (by simp [hrun]) (allowActive_iff.mpr hrun), pixStep_no_table hdue ht]
  rfl

/-! ### CDATA -/

theorem regWrite_cdata {s : State} {v : Word} (hrun : s.run = .idle) (hc : s.caddr.toNat ≤ 16384) :
    regWrite 0x29 v s = { curveWrite s.caddr.toNat v s with caddr := s.caddr + 1 } := by
  simp [regWrite, writable, hrun, Nat.not_lt.mpr hc]

theorem regWrite_cdata_refused {s : State} {v : Word} (hrun : s.run = .idle) (hc : 16384 < s.caddr.toNat) :
    regWrite 0x29 v s = s.raise .badAccess := by
  simp [regWrite, writable, hrun, hc]

/-- Settles O48: the write reaches CDATA's store, or its refusal, by the value of CADDR. -/
theorem cdataWrites : Obligations.CdataWrites := by
  intro s v rest hrun hin
  have hstep := step_regWrite (by simp [hrun]) (by decide) hin
  refine ⟨fun hc => ⟨storeSet s.curve s.caddr.toNat v, ?_, fun i => storeGet_storeSet _ _ _ _⟩, fun hc => ?_⟩
  · rw [hstep]
    exact congrArg _ (regWrite_cdata (s := { s with hostIn := rest }) hrun hc)
  · rw [hstep]
    exact congrArg _ (regWrite_cdata_refused (s := { s with hostIn := rest }) hrun hc)

end Sys2Proof.Machine
end

section
/-! PROOFS. The statement of 20_memory.md: the part of the state that the raster order speaks of, and how a pixel step and
the run loop move it on. -/

namespace Sys2Proof.Machine

/-! ### The scan: the image, the position in it, and what was written -/

/-- The part of a state that the order of the raster events speaks of: the image and the window (10_state.md R30), the
position in it (R24), and the raster. -/
structure Scan where
  height : Word
  raww : Word
  visw : Word
  lmargin : Word
  row : Word
  col : Word
  raster : List RasterEvent

def State.scan (s : State) : Scan := ⟨s.height, s.raww, s.visw, s.lmargin, s.row, s.col, s.raster⟩

/-- The place of the position in row-major order. -/
def Scan.place (a : Scan) : Nat := 65536 * a.row.toNat + a.col.toNat

/-- The place of the pixel an event was written for: its raw column is LMARGIN right of its raster column (43_predictive.md
R200). -/
def Scan.placeOf (a : Scan) (e : RasterEvent) : Nat := 65536 * e.row.toNat + (e.vcol.toNat + a.lmargin.toNat)

/-- The position is inside the image. -/
def Scan.Inside (a : Scan) : Prop := a.row.toNat < a.height.toNat ∧ a.col.toNat < a.raww.toNat

/-- The event's pixel is inside the image and the window. -/
def Scan.Shows (a : Scan) (e : RasterEvent) : Prop :=
  e.row.toNat < a.height.toNat ∧ e.vcol.toNat + a.lmargin.toNat < a.raww.toNat ∧ e.vcol.toNat < a.visw.toNat

/-- The scan `b` goes on from `a`: same image, a position not before `a`'s, and new events in row-major order from the place
of `a` up to that of `b`. -/
def Scan.GoesOn (a b : Scan) : Prop :=
  b = { a with row := b.row, col := b.col, raster := b.raster } ∧ a.place ≤ b.place ∧
    ∃ events, b.raster = a.raster ++ events ∧ events.Pairwise RasterEvent.before ∧
      ∀ e ∈ events, a.Shows e ∧ a.placeOf e ∈ Set.Ico a.place b.place

/-- One number orders the pixels of an image: a row has fewer than 65536 of them. -/
theorem Scan.before_of_placeOf_lt {a : Scan} {e e' : RasterEvent} (he : a.Shows e) (he' : a.Shows e')
    (h : a.placeOf e < a.placeOf e') : e.before e' := by
  obtain ⟨-, hcol, -⟩ := he
  obtain ⟨-, hcol', -⟩ := he'
  have hw := a.raww.isLt
  unfold placeOf at h
  rw [RasterEvent.before, ← BitVec.toNat_inj]
  omega

theorem Scan.GoesOn.refl (a : Scan) : a.GoesOn a := ⟨rfl, le_rfl, [], by simp⟩

theorem Scan.GoesOn.trans {a b c : Scan} (hab : a.GoesOn b) (hbc : b.GoesOn c) : a.GoesOn c := by
  obtain ⟨himg, hle, es, hes, hpair, hin⟩ := hab
  obtain ⟨himg', hle', es', hes', hpair', hin'⟩ := hbc
  have hin_a : ∀ e ∈ es', a.Shows e ∧ a.placeOf e ∈ Set.Ico b.place c.place := by
    rw [himg] at hin'
    exact hin'
  refine ⟨?_, hle.trans hle', es ++ es', by rw [hes', hes, List.append_assoc], ?_, ?_⟩
  · rw [himg] at himg'
    exact himg'
  · refine List.pairwise_append.mpr ⟨hpair, hpair', fun e he e' he' => ?_⟩
    obtain ⟨hs, -, hlt⟩ := hin e he
    obtain ⟨hs', hge, -⟩ := hin_a e' he'
    exact before_of_placeOf_lt hs hs' (hlt.trans_le hge)
  · intro e he
    rcases List.mem_append.mp he with he | he
    · obtain ⟨hs, hge, hlt⟩ := hin e he
      exact ⟨hs, hge, hlt.trans_le hle'⟩
    · obtain ⟨hs, hge, hlt⟩ := hin_a e he
      exact ⟨hs, hle.trans hge, hlt⟩

/-! ### What leaves the scan where it is -/

@[simp] theorem State.raise_scan (s : State) (c : FaultCause) : (s.raise c).scan = s.scan := rfl

theorem fetchRecord_scan (s : State) : (fetchRecord s).state.scan = s.scan := by
  rcases fetchRecord_frame s with ⟨_, _, _, h⟩ | ⟨_, _, _, -, h⟩ <;> rw [h] <;> rfl

theorem predUpd_scan (diff : Int) (s : State) : (predUpd diff s).2.scan = s.scan := by
  obtain ⟨_, _, _, _, _, _, h⟩ := predUpd_frame diff s
  rw [h]; rfl

theorem brreset_scan (s : State) : (brreset s).scan = s.scan := by
  rw [brreset_eq]; rfl

theorem hbuild_scan (n : Nat) (s : State) : (hbuild n s).state.scan = s.scan := by
  rcases hbuild_cases n s with ⟨_, _, h⟩ | ⟨_, _, _, -, h⟩ <;> rw [h] <;> rfl

theorem splitTrans_scan (s : State) : (splitTrans s).state.scan = s.scan := by
  have hb := (hbuild_scan (s.tsel.toNat + 1) (brreset s)).trans (brreset_scan s)
  rcases splitTrans_cases s with ⟨s2, h, e⟩ | ⟨s2, h, e⟩ <;> rw [h] at hb <;> rw [e] <;> exact hb

/-! ### What moves it: EMIT and ADVANCE -/

/-- ADVANCE moves the position strictly forward, and no register wraps (43_predictive.md R204). -/
theorem place_lt_advance {s : State} (hin : s.scan.Inside) : s.scan.place < (advance s).scan.place := by
  obtain ⟨hrow, hcol⟩ : s.row.toNat < s.height.toNat ∧ s.col.toNat < s.raww.toNat := hin
  have hh := s.height.isLt
  have hw := s.raww.isLt
  rcases advance_cases s with ⟨h, e⟩ | ⟨-, -, e⟩ | ⟨-, -, e⟩ <;> rw [e] <;> simp only [State.scan, Scan.place] <;> bv_omega

/-- After ADVANCE the position is inside the image, unless the image is done. -/
theorem inside_advance {s : State} (hin : s.scan.Inside) (hrun : (advance s).run = .active) :
    (advance s).scan.Inside := by
  obtain ⟨hrow, hcol⟩ : s.row.toNat < s.height.toNat ∧ s.col.toNat < s.raww.toNat := hin
  rcases advance_cases s with ⟨h, e⟩ | ⟨-, -, e⟩ | ⟨-, hne, e⟩ <;> rw [e] at hrun ⊢ <;>
    simp only [State.scan, Scan.Inside]
  · bv_omega
  · cases hrun
  · bv_omega

theorem advance_scan (s : State) :
    (advance s).scan = { s.scan with row := (advance s).row, col := (advance s).col } := by
  rcases advance_cases s with ⟨-, e⟩ | ⟨-, -, e⟩ | ⟨-, -, e⟩ <;> rw [e] <;> rfl

/-- EMIT keeps the position; the event it may add is shown at the place of the position (43_predictive.md R200). -/
theorem emit_scan {s : State} (hin : s.scan.Inside) (v : Word) :
    ∃ events, (emit v s).scan = { s.scan with raster := s.raster ++ events } ∧ events.Pairwise RasterEvent.before ∧
      ∀ e ∈ events, s.scan.Shows e ∧ s.scan.placeOf e = s.scan.place := by
  rcases emit_cases v s with ⟨hw, e⟩ | ⟨-, e⟩ <;> rw [e]
  · obtain ⟨hrow, hcol⟩ : s.row.toNat < s.height.toNat ∧ s.col.toNat < s.raww.toNat := hin
    obtain ⟨hl, hv⟩ : s.lmargin.toNat ≤ s.col.toNat ∧ s.col.toNat - s.lmargin.toNat < s.visw.toNat := by
      simpa [inWindow] using hw
    have hvcol : (s.col - s.lmargin).toNat = s.col.toNat - s.lmargin.toNat := BitVec.toNat_sub_of_le hl
    refine ⟨[⟨s.row, s.col - s.lmargin, v⟩], rfl, List.pairwise_singleton _ _, ?_⟩
    simp only [List.mem_singleton, forall_eq, Scan.Shows, Scan.placeOf, Scan.place, State.scan, hvcol]
    omega
  · exact ⟨[], by simp [State.scan], .nil, by simp⟩

/-- A pixel emitted and then passed. -/
theorem goesOn_advance_emit {s : State} (hin : s.scan.Inside) (v : Word) :
    s.scan.GoesOn (advance (emit v s)).scan ∧
      ((advance (emit v s)).run = .active → (advance (emit v s)).scan.Inside) := by
  obtain ⟨events, hemit, hpair, hev⟩ := emit_scan hin v
  have hin' : (emit v s).scan.Inside := by rw [hemit]; exact hin
  have hplace : s.scan.place < (advance (emit v s)).scan.place := by
    have h := place_lt_advance hin'
    rw [hemit] at h
    exact h
  refine ⟨⟨?_, hplace.le, events, ?_, hpair, fun e he => ?_⟩, inside_advance hin'⟩
  · rw [advance_scan, hemit]
  · rw [advance_scan, hemit]; rfl
  · obtain ⟨hshows, heq⟩ := hev e he
    exact ⟨hshows, heq.ge, heq.trans_lt hplace⟩

/-! ### The pixel step and the run loop -/

/-- From the scan `a` to the state `t`: the scan goes on, and it stays inside the image while the decode does. -/
def ScansTo (a : Scan) (t : State) : Prop := a.GoesOn t.scan ∧ (t.run = .active → t.scan.Inside)

theorem ScansTo.of_scan_eq {a : Scan} {t : State} (hin : a.Inside) (h : t.scan = a) : ScansTo a t := by
  subst h
  exact ⟨.refl _, fun _ => hin⟩

theorem pixelRecord_scansTo {len shl raw : Nat} {s : State} (hin : s.scan.Inside) :
    ScansTo s.scan (pixelRecord len shl raw s).state := by
  have hu := predUpd_scan (residual len shl raw) s
  rcases pixelRecord_cases len shl raw s with ⟨-, h⟩ | ⟨-, -, h⟩ | ⟨v, -, -, h⟩ <;> rw [h]
  · exact .of_scan_eq hin hu
  · exact .of_scan_eq hin hu
  · rw [← hu] at hin ⊢
    exact goesOn_advance_emit hin v

theorem pixBody_scansTo {s : State} (hin : s.scan.Inside) : ScansTo s.scan (pixBody s).state := by
  have hf := fetchRecord_scan s
  refine Res.state_bind (.of_scan_eq hin hf) fun r s1 e => ?_
  have hs1 : s1.scan = s.scan := by rwa [e] at hf
  rw [← hs1] at hin ⊢
  exact pixelRecord_scansTo hin

/-- A pixel step's split transition leaves the scan to the pixel after it (43_predictive.md R202, R205). -/
theorem pixStep_scansTo {s t : State} (hin : s.scan.Inside) (h : pixStep s = .ok t) : ScansTo s.scan t := by
  have hs := splitTrans_scan s
  rcases pixStep_cases h with ⟨-, rfl⟩ | ⟨-, -, e | ⟨s1, e, rfl⟩⟩
  · exact pixBody_scansTo hin
  · rw [e] at hs
    exact .of_scan_eq hin hs
  · have hs1 : s1.scan = s.scan := by rwa [e] at hs
    rw [← hs1] at hin ⊢
    exact pixBody_scansTo hin

theorem runLoop_scansTo {n : Nat} {s t : State} (hin : s.scan.Inside) (h : runLoop n s = .ok t) :
    ScansTo s.scan t := by
  refine runLoop_keeps (P := ScansTo s.scan) (fun u w hrun hstep hu => ?_) h (.of_scan_eq hin rfl)
  obtain ⟨hgo, hinside⟩ := hu
  obtain ⟨hgo', hinside'⟩ := pixStep_scansTo (hinside hrun) hstep
  exact ⟨hgo.trans hgo', hinside'⟩

/-! ### STEP and RUN -/

theorem exec_step_of_active {s t : State} (hrun : s.run = .active) : exec .step s = .next t ↔ pixStep s = .ok t := by
  change gate allowActive s (pixOutcome (pixStep s)) = _ ↔ _
  rw [gate_allowed (by simp [hrun]) (allowActive_iff.mpr hrun), pixOutcome_eq_next]

theorem exec_run_of_active {s t : State} (hrun : s.run = .active) :
    exec .run s = .next t ↔ runLoop runFuel s = .ok t := by
  change gate allowActive s (pixOutcome (runLoop runFuel s)) = _ ↔ _
  rw [gate_allowed (by simp [hrun]) (allowActive_iff.mpr hrun), pixOutcome_eq_next]

/-- While ACTIVE the invariant keeps the position inside the image (43_predictive.md R209 a). -/
theorem inside_of_inv {s : State} (hinv : inv s = true) (hrun : s.run = .active) : s.scan.Inside := by
  have hactive : activeOk s = true := by
    unfold inv at hinv
    exact (Bool.and_eq_true_iff.mp hinv).2
  simp only [activeOk, hrun, decide_true, Bool.not_true, Bool.false_or, Bool.and_eq_true, decide_eq_true_eq] at hactive
  obtain ⟨⟨⟨⟨⟨⟨⟨⟨-, hrow⟩, hcol⟩, -⟩, -⟩, -⟩, -⟩, -⟩, -⟩ := hactive
  exact ⟨hrow, hcol⟩

/-- Settles O55: a pixel step moves the scan on, hence the run loop does; the place in row-major order is then read back as
row and column. -/
theorem rasterEventsInOrder : Obligations.RasterEventsInOrder := by
  intro s t hinv hrun h
  have hin := inside_of_inv hinv hrun
  have hscan : ScansTo s.scan t := by
    rcases h with h | h
    · exact pixStep_scansTo hin ((exec_step_of_active hrun).mp h)
    · exact runLoop_scansTo hin ((exec_run_of_active hrun).mp h)
  obtain ⟨⟨-, -, events, hraster, hpair, hev⟩, -⟩ := hscan
  refine ⟨events, hraster, hpair, fun e he => ?_⟩
  obtain ⟨⟨hrow, hcol, hvis⟩, hfrom, hto⟩ := hev e he
  simp only [State.scan, Scan.place, Scan.placeOf] at hrow hcol hvis hfrom hto
  have hw := s.raww.isLt
  have hs := s.col.isLt
  have ht := t.col.isLt
  refine ⟨?_, ?_, hrow, hcol, hvis⟩ <;> rw [← BitVec.toNat_inj] <;> omega

end Sys2Proof.Machine
end

section
/-! PROOFS. The statements of 30_encoding.md: numbers and their bits, the codeword rows of the candidate tables, the three kinds
of encoding, each read back by its decoder, and the residual of PX.PLAIN. -/

namespace Sys2Proof

/-! ### Numbers and their bits -/

@[simp] theorem length_bitsOf (n v : Nat) : (bitsOf n v).length = n := by
  induction n with
  | zero => rfl
  | succ n ih => rw [bitsOf, List.length_cons, ih]

/-- The first `m` of the bits of a number are those of its quotient (20_memory.md R67). -/
theorem take_bitsOf (m k v : Nat) : (bitsOf (m + k) v).take m = bitsOf m (v / 2 ^ k) := by
  induction m with
  | zero => rfl
  | succ m ih => rw [Nat.succ_add, bitsOf, bitsOf, List.take_succ_cons, ih, Nat.testBit_div_two_pow]

theorem foldl_bitsOf (n v acc : Nat) :
    (bitsOf n v).foldl (fun acc b => 2 * acc + b.toNat) acc = acc * 2 ^ n + v % 2 ^ n := by
  induction n generalizing acc with
  | zero => simp [bitsOf, Nat.mod_one]
  | succ n ih =>
    rw [bitsOf, List.foldl_cons, ih, Nat.mod_pow_succ, Nat.toNat_testBit]
    ring

/-- Reading back the bits of a number that fits them. -/
theorem natOfBits_bitsOf {n v : Nat} (h : v < 2 ^ n) : natOfBits (bitsOf n v) = v := by
  rw [natOfBits, foldl_bitsOf, Nat.zero_mul, Nat.zero_add, Nat.mod_eq_of_lt h]

/-! ### The codeword rows -/

/-- The bits of the row's record with the raw field `raw`: the codeword, then the raw bits (30_encoding.md R97). -/
def CodeRow.bits (r : CodeRow) (raw : Nat) : List Bool :=
  bitsOf r.clen r.code ++ bitsOf (payloadRawBits r.payload) raw

/-- A record named by a codeword is written as some row of its table has it: one row makes each constructor. -/
theorem exists_row_of_encode {i : Instr} {t : Nat} {bits : List Bool} (h : encode i = .stream t bits) :
    ∃ r ∈ codeRows t, ∃ raw < 2 ^ payloadRawBits r.payload, r.make raw = i ∧ r.bits raw = bits := by
  cases i
  all_goals cases h
  all_goals simp only [codeRows, codeRows0, codeRows1, codeRows2, codeRows3, codeRows4, codeRows5, List.mem_cons,
    List.not_mem_nil, exists_eq_or_imp, exists_eq_left, reduceCtorEq, false_and, and_false, exists_false, or_false, false_or]
  case t0c07 | t0c13 | t1c10 | t2c09 | t3c09 | t4c12 | t5c11 => exact ⟨0, Nat.two_pow_pos _, trivial, rfl⟩
  all_goals
    rename_i raw
    exact ⟨raw.toNat, raw.isLt, by rw [BitVec.ofNat_toNat, BitVec.setWidth_eq], rfl⟩

/-- The codeword of `a` is not longer than that of `b` and does not begin it. -/
def CodeRow.Before (a b : CodeRow) : Prop := a.clen ≤ b.clen ∧ b.code / 2 ^ (b.clen - a.clen) ≠ a.code

/-- No codeword of a candidate table begins another, and the shorter ones come first (30_encoding.md R94; PRESUMED, log
entry 6). -/
theorem codeRows_pairwise (t : Nat) : (codeRows t).Pairwise CodeRow.Before := by
  unfold codeRows CodeRow.Before
  split
  case h_7 => exact .nil
  all_goals decide

/-- Each codeword has as many bits as its length says. -/
theorem code_lt {t : Nat} {r : CodeRow} (h : r ∈ codeRows t) : r.code < 2 ^ r.clen := by
  revert r
  unfold codeRows
  split
  case h_7 => simp
  all_goals decide

/-- A stream that begins with a row's codeword begins with the first bits of it. -/
theorem CodeRow.take_bits {m : Nat} {r : CodeRow} (h : m ≤ r.clen) (raw : Nat) (rest : List Bool) :
    (r.bits raw ++ rest).take m = bitsOf m (r.code / 2 ^ (r.clen - m)) := by
  obtain ⟨k, hk⟩ := Nat.exists_eq_add_of_le h
  rw [CodeRow.bits, List.append_assoc, List.take_append_of_le_length (by rw [length_bitsOf]; exact h), hk, take_bitsOf,
    Nat.add_sub_cancel_left]

/-- The first codeword that the stream begins with is the one it was written with, since no earlier one begins that. -/
theorem find_row {t : Nat} {r : CodeRow} (h : r ∈ codeRows t) (raw : Nat) (rest : List Bool) :
    (codeRows t).find? (fun a => decide (a.clen ≤ (r.bits raw ++ rest).length) &&
      natOfBits ((r.bits raw ++ rest).take a.clen) == a.code) = some r := by
  obtain ⟨before, after, hrows⟩ := List.append_of_mem h
  have hpair := codeRows_pairwise t
  rw [hrows, List.pairwise_append] at hpair
  obtain ⟨-, -, hbefore⟩ := hpair
  refine List.find?_eq_some_iff_append.mpr ⟨?_, before, after, hrows, fun a ha => ?_⟩
  · rw [CodeRow.take_bits le_rfl, Nat.sub_self, Nat.pow_zero, Nat.div_one, natOfBits_bitsOf (code_lt h)]
    simp [CodeRow.bits]
  · obtain ⟨hle, hne⟩ := hbefore a ha r (List.mem_cons_self ..)
    have hlt : r.code / 2 ^ (r.clen - a.clen) < 2 ^ a.clen := by
      rw [Nat.div_lt_iff_lt_mul (Nat.two_pow_pos _), ← Nat.pow_add, Nat.add_sub_cancel' hle]
      exact code_lt h
    rw [CodeRow.take_bits hle, natOfBits_bitsOf hlt]
    simp [hne]

/-- A row's record is read whole off the front of a stream. -/
theorem decodeStream_bits {t : Nat} {r : CodeRow} (h : r ∈ codeRows t) {raw : Nat}
    (hraw : raw < 2 ^ payloadRawBits r.payload) (rest : List Bool) :
    decodeStream t (r.bits raw ++ rest) = .ok (r.make raw, rest) := by
  have hdrop : (r.bits raw ++ rest).drop r.clen = bitsOf (payloadRawBits r.payload) raw ++ rest := by
    rw [CodeRow.bits, List.append_assoc]
    exact List.drop_left' (length_bitsOf _ _)
  unfold decodeStream
  rw [find_row h]
  simp [hdrop, natOfBits_bitsOf hraw]

/-- Settles O10: the record is some row's. -/
theorem streamRecordReadWhole : Obligations.StreamRecordReadWhole := by
  intro i t bits rest h
  obtain ⟨r, hr, raw, hraw, rfl, rfl⟩ := exists_row_of_encode h
  exact decodeStream_bits hr hraw rest

/-! ### The payload byte -/

theorem payloadLen_ofNat {len : Nat} (hlen : len ≤ 15) (shl : Nat) :
    payloadLen (BitVec.ofNat 8 (16 * shl + len)) = len := by
  rw [payloadLen, BitVec.toNat_ofNat]
  omega

theorem payloadShl_ofNat {len shl : Nat} (hlen : len ≤ 15) (hshl : shl ≤ 15) :
    payloadShl (BitVec.ofNat 8 (16 * shl + len)) = shl := by
  rw [payloadShl, BitVec.toNat_ofNat]
  omega

/-- Raw bits as many as a legal payload asks for make its class's instruction (30_encoding.md R97). -/
theorem decodeRecord_bitsOf {payload : Byte} {raw : Nat} (hlegal : payloadShl payload ≤ payloadLen payload)
    (hraw : raw < 2 ^ payloadRawBits payload) :
    decodeRecord payload (bitsOf (payloadRawBits payload) raw) = classInstr payload raw := by
  rw [decodeRecord, if_neg (Nat.not_lt.mpr hlegal), if_neg (not_not.mpr (length_bitsOf _ _)), natOfBits_bitsOf hraw]

/-- The byte of a legal `len` and `shl` other than 0 with its raw bits: the class is told by `shl` (30_encoding.md R93). -/
theorem decodeRecord_ofNat {len shl raw : Nat} (hpos : 1 ≤ len) (hlen : len ≤ 15) (hshl : shl ≤ len)
    (hraw : raw < 2 ^ (len - shl)) :
    decodeRecord (BitVec.ofNat 8 (16 * shl + len)) (bitsOf (len - shl) raw) =
      .ok (if shl = 0 then .pxPlain len raw else .pxScaled len shl raw) := by
  have hl := payloadLen_ofNat hlen shl
  have hs := payloadShl_ofNat hlen (hshl.trans hlen)
  have hr : payloadRawBits (BitVec.ofNat 8 (16 * shl + len)) = len - shl := by rw [payloadRawBits, hl, hs]
  have hne : BitVec.ofNat 8 (16 * shl + len) ≠ 0 := fun h => by
    rw [h] at hl
    exact absurd hpos (hl ▸ by decide)
  rw [← hr, decodeRecord_bitsOf (by rwa [hs, hl]) (by rwa [hr]), classInstr, if_neg hne, hs, hl, if_pos hshl]
  split <;> rfl

/-- A payload byte and its raw bits are read back. -/
theorem decodeRecord_of_encode {i : Instr} {payload : Byte} {raw : List Bool} (hwf : i.wf = true)
    (h : encode i = .record payload raw) : decodeRecord payload raw = .ok i := by
  cases i with
  | pxZero => cases h; rfl
  | pxPlain len raw =>
    cases h
    simp only [Instr.wf, Bool.and_eq_true, decide_eq_true_eq] at hwf
    obtain ⟨⟨hpos, hlen⟩, hraw⟩ := hwf
    simpa using decodeRecord_ofNat hpos hlen (Nat.zero_le len) hraw
  | pxScaled len shl raw =>
    cases h
    simp only [Instr.wf, Bool.and_eq_true, decide_eq_true_eq] at hwf
    obtain ⟨⟨⟨hpos, hshl⟩, hlen⟩, hraw⟩ := hwf
    rw [decodeRecord_ofNat (hpos.trans hshl) hlen hshl hraw, if_neg (Nat.ne_of_gt hpos)]
  | _ => cases h

/-! ### The command word -/

/-- The opcode is the high byte, the argument the low byte (30_encoding.md R102). -/
theorem toNat_opcode_append (opcode arg : Byte) : (opcode ++ arg).toNat = 256 * opcode.toNat + arg.toNat := by
  rw [BitVec.toNat_append, ← Nat.shiftLeft_add_eq_or_of_lt arg.isLt, Nat.shiftLeft_eq, Nat.mul_comm]

theorem opcode_append_div (opcode arg : Byte) : (opcode ++ arg).toNat / 256 = opcode.toNat := by
  rw [toNat_opcode_append]
  omega

theorem opcode_append_mod (opcode arg : Byte) : (opcode ++ arg).toNat % 256 = arg.toNat := by
  rw [toNat_opcode_append]
  omega

theorem ite_ok_error_eq_ok {α ε : Type} {p : Prop} [Decidable p] {a b : α} {e : ε} :
    (if p then .ok a else .error e : Except ε α) = .ok b ↔ p ∧ a = b := by
  split <;> simp [*]

/-- HBLD is taken with a table number up to 5 (30_encoding.md R104). -/
theorem decodeCommand_hbld (n : Byte) :
    decodeCommand (0x05#8 ++ n) = if n.toNat ≤ 5 then .ok (.hbld n) else .error .argOutOfRange := by
  simp [decodeCommand, opcode_append_div, opcode_append_mod]

/-- RDB is taken with a bit count up to 16 (30_encoding.md R104). -/
theorem decodeCommand_rdb (n : Byte) :
    decodeCommand (0x0A#8 ++ n) = if n.toNat ≤ 16 then .ok (.rdb n) else .error .argOutOfRange := by
  simp [decodeCommand, opcode_append_div, opcode_append_mod]

theorem decodeCommand_of_encode {i : Instr} {w : Word} (hwf : i.wf = true) (h : encode i = .cmd w) :
    decodeCommand w = .ok i := by
  cases i with
  | hbld n => cases h; rw [decodeCommand_hbld, if_pos (of_decide_eq_true hwf)]
  | rdb n => cases h; rw [decodeCommand_rdb, if_pos (of_decide_eq_true hwf)]
  | nop | reset | hdr | cint | ctrim | start | step | run | brst | hdec => cases h; rfl
  | _ => cases h

/-- Settles O8, by the kind of encoding. -/
theorem decodeOfEncode : Obligations.DecodeOfEncode := by
  intro i hwf
  cases h : encode i with
  | cmd w => exact decodeCommand_of_encode hwf h
  | record payload raw => exact decodeRecord_of_encode hwf h
  | stream t bits =>
    have hread := streamRecordReadWhole i t bits [] h
    rw [List.append_nil] at hread
    rw [decode, hread]

/-- Only arguments in range decode (30_encoding.md R104). -/
theorem wf_of_decodeCommand {w : Word} {i : Instr} (h : decodeCommand w = .ok i) : i.wf = true := by
  have hw := Machine.encode_of_decodeCommand h
  cases i with
  | hbld n =>
    cases hw
    rw [decodeCommand_hbld, ite_ok_error_eq_ok] at h
    obtain ⟨hn, -⟩ := h
    exact decide_eq_true hn
  | rdb n =>
    cases hw
    rw [decodeCommand_rdb, ite_ok_error_eq_ok] at h
    obtain ⟨hn, -⟩ := h
    exact decide_eq_true hn
  | nop | reset | hdr | cint | ctrim | start | step | run | brst | hdec => rfl
  | _ => cases hw

/-- Settles O9: the argument's range is checked before the instruction is answered. -/
theorem encodeOfDecodedCommand : Obligations.EncodeOfDecodedCommand := fun _ _ h =>
  ⟨wf_of_decodeCommand h, Machine.encode_of_decodeCommand h⟩

/-- Which command words decode (30_encoding.md R103, R104), by the opcode. -/
theorem decodeCommand_eq_ok_iff (w : Word) :
    (∃ i, decodeCommand w = .ok i) ↔
      w.toNat / 256 ≤ 0x0B ∧
        (if w.toNat / 256 = 0x05 then w.toNat % 256 ≤ 5
         else if w.toNat / 256 = 0x0A then w.toNat % 256 ≤ 16
         else w.toNat % 256 = 0) := by
  unfold decodeCommand
  dsimp only
  split
  case h_13 =>
    simp only [imp_false] at *
    have hop : ¬w.toNat / 256 ≤ 0x0B := by omega
    simp [hop]
  all_goals simp [*, ite_ok_error_eq_ok]

/-- Settles O7: a word that does not decode is the refusal of COMMAND (44_host_commands.md R233). -/
theorem reservedCommandWords : Obligations.ReservedCommandWords := by
  intro w
  refine ⟨decodeCommand_eq_ok_iff w, fun e s he _ => ?_⟩
  rw [Machine.command, he]

/-! ### The residual of PX.PLAIN -/

theorem scaled_zero (raw : Nat) : Machine.scaled 0 raw = raw := by
  simp only [Machine.scaled, Nat.shiftLeft_eq, Nat.shiftRight_eq_div_pow]
  omega

/-- A raw field with its top bit set is the residual itself (43_predictive.md R194). -/
theorem residual_plain_of_le {len raw : Nat} (hpos : 1 ≤ len) (hge : 2 ^ (len - 1) ≤ raw) (hlt : raw < 2 ^ len) :
    Machine.residual len 0 raw = raw := by
  have htop : raw.testBit (len - 1) = true :=
    Nat.testBit_of_two_pow_le_and_two_pow_add_one_gt hge (by rwa [Nat.sub_add_cancel hpos])
  simp [Machine.residual, scaled_zero, htop]

/-- A raw field with its top bit clear stands for a negative residual (43_predictive.md R194). -/
theorem residual_plain_of_lt {len raw : Nat} (hpos : 1 ≤ len) (hlt : raw < 2 ^ (len - 1)) :
    Machine.residual len 0 raw = raw - (2 ^ len - 1) := by
  simp [Machine.residual, scaled_zero, hpos, Nat.testBit_lt_two_pow hlt, Nat.shiftLeft_eq]

/-- Settles O21: as |d| has `len` bits, the raw field has its top bit set if d is positive, and clear if it is negative. -/
theorem plainResidualInverse : Obligations.PlainResidualInverse := by
  intro d hd hlt len raw
  have hpos : 1 ≤ len := Nat.size_pos.mpr (Int.natAbs_pos.mpr hd)
  have htop : 2 ^ (len - 1) ≤ d.natAbs := Nat.lt_size.mp (Nat.sub_one_lt_of_lt hpos)
  have hfit : d.natAbs < 2 ^ len := Nat.lt_size_self _
  have htwo : 2 ^ len = 2 * 2 ^ (len - 1) := by rw [← Nat.pow_succ', Nat.succ_eq_add_one, Nat.sub_add_cancel hpos]
  have hcast : (2 : Int) ^ len = (2 ^ len : Nat) := by norm_cast
  refine ⟨hpos, Nat.size_le.mpr hlt, ?_⟩
  rcases Int.lt_or_gt_of_ne hd with hneg | hpos'
  · have hraw : raw = 2 ^ len - 1 - d.natAbs := by
      simp only [raw, if_neg (Int.not_lt.mpr hneg.le), hcast]
      omega
    rw [residual_plain_of_lt hpos (by omega), hcast]
    omega
  · have hraw : raw = d.natAbs := by
      simp only [raw, if_pos hpos']
      omega
    rw [residual_plain_of_le hpos (by omega) (by omega)]
    omega

/-! ### Words and tables written out -/

/-- Settles O11: the words that stand for an instruction are those the encoder writes for it (O8), the others are evaluated. -/
theorem writtenOutWords : Obligations.WrittenOutWords :=
  ⟨decodeOfEncode .nop rfl, decodeOfEncode (.hbld 3) rfl, decodeOfEncode (.rdb 16) rfl, decodeOfEncode .hdec rfl,
    rfl, rfl, rfl, decodeOfEncode .pxZero rfl, decodeOfEncode (.pxPlain 3 4) rfl, decodeOfEncode (.pxScaled 4 1 5) rfl,
    rfl, decodeOfEncode (.t4c04 1) rfl⟩

theorem codeRows_canonical (t : Fin 6) :
    (codeRows t.val).map (fun r => (r.clen, r.code, r.payload)) = canonicalCodes candidateHrom[t] := by
  fin_cases t <;> rfl

theorem candidateHrom_complete : Machine.HromComplete candidateHrom := by
  decide +kernel

/-- Settles O12: both halves are evaluated, table by table. -/
theorem candidateTablesCanonical : Obligations.CandidateTablesCanonical :=
  ⟨codeRows_canonical, candidateHrom_complete⟩

end Sys2Proof
end

section
/-! PROOFS. The bit reader said by position: BP as a number of bits, the bits from it on, and what RDBIT and RDBITS do with bits
left and without (40_bitreader.md R121 to R123). -/

namespace Sys2Proof.Machine

/-! ### Positions -/

@[simp] theorem State.setBitPos_bitPos (s : State) : s.setBitPos (bitPos s) = s := by
  have hbyte : BitVec.ofNat 32 (bitPos s / 8) = s.bpByte := BitVec.eq_of_toNat_eq (by
    rw [BitVec.toNat_ofNat, bitPos]; omega)
  have hbit : BitVec.ofNat 3 (bitPos s % 8) = s.bpBit := BitVec.eq_of_toNat_eq (by
    rw [BitVec.toNat_ofNat, bitPos]; omega)
  rw [State.setBitPos, hbyte, hbit, State.setBp_self]

@[simp] theorem State.setBitPos_setBitPos (s : State) (p q : Nat) : (s.setBitPos p).setBitPos q = s.setBitPos q := rfl

theorem bitPos_setBitPos (s : State) {p : Nat} (hp : p < 2 ^ 35) : bitPos (s.setBitPos p) = p := by
  simp only [bitPos, State.setBitPos, State.setBp_bpByte, State.setBp_bpBit, BitVec.toNat_ofNat]
  omega

/-- BP stays within its width as far as DATA has bits. -/
theorem bitPos_setBitPos_add {s : State} {n : Nat} (h : n ≤ bitsLeft s) :
    bitPos (s.setBitPos (bitPos s + n)) = bitPos s + n := by
  refine bitPos_setBitPos s ?_
  simp only [bitsLeft, bitPos] at h ⊢
  omega

theorem bitsLeft_setBitPos_add {s : State} {n : Nat} (h : n ≤ bitsLeft s) :
    bitsLeft (s.setBitPos (bitPos s + n)) = bitsLeft s - n := by
  rw [bitsLeft, bitPos_setBitPos_add h, State.setBitPos_srclen, bitsLeft, Nat.sub_sub]

/-- Within the bits left BP does not pass the end of DATA. -/
theorem bitPos_setBitPos_add_le {s : State} {n : Nat} (hle : bitPos s ≤ 8 * s.srclen.toNat) (h : n ≤ bitsLeft s) :
    bitPos (s.setBitPos (bitPos s + n)) ≤ 8 * (s.setBitPos (bitPos s + n)).srclen.toNat := by
  rw [bitPos_setBitPos_add h, State.setBitPos_srclen]
  exact (Nat.add_le_add_left h _).trans (Nat.add_sub_cancel' hle).le

/-- The position after the last bit of DATA is (SRCLEN, 0). -/
theorem setBitPos_add_bitsLeft {s : State} (h : bitPos s ≤ 8 * s.srclen.toNat) :
    s.setBitPos (bitPos s + bitsLeft s) = s.setBp s.srclen 0 := by
  have hend : bitPos s + bitsLeft s = 8 * s.srclen.toNat := Nat.add_sub_cancel' h
  rw [hend, State.setBitPos, Nat.mul_div_cancel_left _ (by decide), Nat.mul_mod_right, BitVec.ofNat_toNat,
    BitVec.setWidth_eq]
  rfl

/-! ### Bits of DATA -/

@[simp] theorem dataBit_setBitPos (s : State) (p byte bit : Nat) :
    dataBit (s.setBitPos p) byte bit = dataBit s byte bit := rfl

@[simp] theorem bitsAt_setBitPos (s : State) (q p n : Nat) : bitsAt (s.setBitPos q) p n = bitsAt s p n := rfl

@[simp] theorem bitsAt_zero (s : State) (p : Nat) : bitsAt s p 0 = 0 := rfl

theorem bitsAt_succ (s : State) (p n : Nat) :
    bitsAt s p (n + 1) = 2 * bitsAt s p n + (dataBit s ((p + n) / 8) ((p + n) % 8)).toNat := by
  simp [bitsAt, natOfBits, List.range_succ]

theorem bitsAt_add (s : State) (p m n : Nat) :
    bitsAt s p (m + n) = bitsAt s p m * 2 ^ n + bitsAt s (p + m) n := by
  induction n with
  | zero => simp
  | succ n ih =>
    rw [← Nat.add_assoc, bitsAt_succ, ih, bitsAt_succ, Nat.add_assoc p m n]
    ring

theorem bitsAt_lt (s : State) (p n : Nat) : bitsAt s p n < 2 ^ n := by
  induction n with
  | zero => exact Nat.zero_lt_one
  | succ n ih =>
    have hbit := Bool.toNat_lt (dataBit s ((p + n) / 8) ((p + n) % 8))
    rw [bitsAt_succ, Nat.pow_succ]
    omega

/-- The first `m` of some bits are their quotient. -/
theorem bitsAt_add_div (s : State) (p m n : Nat) : bitsAt s p (m + n) / 2 ^ n = bitsAt s p m := by
  rw [bitsAt_add, Nat.mul_comm, Nat.mul_add_div (Nat.two_pow_pos n), Nat.div_eq_of_lt (bitsAt_lt _ _ _), Nat.add_zero]

/-! ### Reading -/

theorem rdbit_of_none_left {s : State} (h : bitsLeft s = 0) : rdbit s = .raised (s.raise .dataExhausted) := by
  simp only [bitsLeft, bitPos] at h
  rcases rdbit_cases s with ⟨-, e⟩ | ⟨hlt, -, -⟩ | ⟨hlt, -, -⟩
  · exact e
  all_goals omega

/-- With a bit left RDBIT answers it and moves BP one position on, into the next byte or not (R122). -/
theorem rdbit_of_left {s : State} (h : 0 < bitsLeft s) :
    rdbit s = .ok (dataBit s (bitPos s / 8) (bitPos s % 8)) (s.setBitPos (bitPos s + 1)) := by
  have hbyte : bitPos s / 8 = s.bpByte.toNat := by rw [bitPos]; omega
  have hbit : bitPos s % 8 = s.bpBit.toNat := by rw [bitPos]; omega
  simp only [bitsLeft, bitPos] at h
  rcases rdbit_cases s with ⟨hle, -⟩ | ⟨-, h7, e⟩ | ⟨-, h7, e⟩
  · omega
  · have hnext : s.setBitPos (bitPos s + 1) = s.setBp (s.bpByte + 1) 0 := by
      rw [State.setBitPos, bitPos, h7]
      congr 1 <;> bv_omega
    rw [e, hbyte, hbit, hnext]
  · have hnext : s.setBitPos (bitPos s + 1) = s.setBp s.bpByte (s.bpBit + 1) := by
      rw [State.setBitPos, bitPos]
      congr 1 <;> bv_omega
    rw [e, hbyte, hbit, hnext]

theorem rdbitsFrom_of_left (n v : Nat) {s : State} (h : n ≤ bitsLeft s) :
    rdbitsFrom n v s = .ok (v * 2 ^ n + bitsAt s (bitPos s) n) (s.setBitPos (bitPos s + n)) := by
  induction n generalizing v s with
  | zero => simp [rdbitsFrom]
  | succ n ih =>
    have h1 : 1 ≤ bitsLeft s := by omega
    have hrest : n ≤ bitsLeft (s.setBitPos (bitPos s + 1)) := by rw [bitsLeft_setBitPos_add h1]; omega
    rw [rdbitsFrom, rdbit_of_left h1, Res.bind_ok, ih _ hrest, bitPos_setBitPos_add h1, Nat.add_comm n 1, bitsAt_add,
      bitsAt_succ, bitsAt_setBitPos, State.setBitPos_setBitPos, Nat.add_assoc (bitPos s)]
    congr 1
    simp only [bitsAt_zero, Nat.add_zero]
    ring

/-- With `n` bits left RDBITS(n) answers them, the first most significant, and moves BP past them (R123). -/
theorem rdbits_of_left {n : Nat} {s : State} (h : n ≤ bitsLeft s) :
    rdbits n s = .ok (bitsAt s (bitPos s) n) (s.setBitPos (bitPos s + n)) := by
  rw [rdbits, rdbitsFrom_of_left n 0 h, Nat.zero_mul, Nat.zero_add]

theorem rdbitsFrom_of_short (n v : Nat) {s : State} (hle : bitPos s ≤ 8 * s.srclen.toNat) (h : bitsLeft s < n) :
    rdbitsFrom n v s = .raised ((s.setBp s.srclen 0).raise .dataExhausted) := by
  induction n generalizing v s with
  | zero => exact absurd h (Nat.not_lt_zero _)
  | succ n ih =>
    rw [rdbitsFrom]
    rcases Nat.eq_zero_or_pos (bitsLeft s) with h0 | h1
    · rw [rdbit_of_none_left h0, ← setBitPos_add_bitsLeft hle, h0, Nat.add_zero, State.setBitPos_bitPos, Res.bind_raised]
    · have hshort : bitsLeft (s.setBitPos (bitPos s + 1)) < n := by rw [bitsLeft_setBitPos_add h1]; omega
      rw [rdbit_of_left h1, Res.bind_ok, ih _ (bitPos_setBitPos_add_le hle h1) hshort]
      rfl

/-- Short of bits RDBITS faults with BP at the end of DATA (R122, R123). -/
theorem rdbits_of_short {n : Nat} {s : State} (hle : bitPos s ≤ 8 * s.srclen.toNat) (h : bitsLeft s < n) :
    rdbits n s = .raised ((s.setBp s.srclen 0).raise .dataExhausted) :=
  rdbitsFrom_of_short n 0 hle h

end Sys2Proof.Machine
end

section
/-! PROOFS. The codes of a packed table by the slots they take, and the walk of the symbol decoder over a table held
(30_encoding.md R90, R94; 41_huffman.md R143, R145). -/

namespace Sys2Proof.Machine

/-! ### The lengths of the codes -/

theorem scanMaxLen_le (table : PackedTable) (n : Nat) : scanMaxLen table n ≤ n := by
  induction n with
  | zero => exact le_rfl
  | succ n ih =>
    unfold scanMaxLen
    split
    · exact le_rfl
    · exact ih.trans n.le_succ

theorem tableMaxLen_le (table : PackedTable) : tableMaxLen table ≤ 16 := scanMaxLen_le table 16

theorem bounds_of_mem_codeLengths {table : PackedTable} {n l : Nat} (h : l ∈ codeLengths table n) :
    1 ≤ l ∧ l ≤ n := by
  induction n with
  | zero => simp [codeLengths] at h
  | succ n ih =>
    rw [codeLengths, List.mem_append, List.mem_replicate] at h
    rcases h with h | ⟨-, rfl⟩
    · obtain ⟨hpos, hle⟩ := ih h
      exact ⟨hpos, hle.trans n.le_succ⟩
    · exact ⟨Nat.succ_pos n, le_rfl⟩

/-- The codes stand in the order of their lengths (30_encoding.md R90). -/
theorem codeLengths_pairwise (table : PackedTable) (n : Nat) : (codeLengths table n).Pairwise (· ≤ ·) := by
  induction n with
  | zero => exact .nil
  | succ n ih =>
    rw [codeLengths, List.pairwise_append]
    refine ⟨ih, List.pairwise_replicate.mpr (.inr le_rfl), fun l hl l' hl' => ?_⟩
    rw [List.eq_of_mem_replicate hl']
    exact (bounds_of_mem_codeLengths hl).2.trans n.le_succ

variable {table : PackedTable} {j k q : Nat}

theorem codeLength_eq_getElem (hk : k < (tableLengths table).length) :
    codeLength table k = (tableLengths table)[k] := by
  rw [codeLength, List.getD_eq_getElem?_getD, List.getElem?_eq_getElem hk, Option.getD_some]

theorem codeLength_mem (hk : k < (tableLengths table).length) :
    codeLength table k ∈ codeLengths table (tableMaxLen table) := by
  rw [codeLength_eq_getElem hk]
  exact List.getElem_mem hk

theorem codeLength_pos (hk : k < (tableLengths table).length) : 1 ≤ codeLength table k :=
  (bounds_of_mem_codeLengths (codeLength_mem hk)).1

theorem codeLength_le (hk : k < (tableLengths table).length) : codeLength table k ≤ tableMaxLen table :=
  (bounds_of_mem_codeLengths (codeLength_mem hk)).2

theorem codeLength_mono (hjk : j ≤ k) (hk : k < (tableLengths table).length) :
    codeLength table j ≤ codeLength table k := by
  rcases Nat.eq_or_lt_of_le hjk with rfl | hlt
  · exact le_rfl
  · rw [codeLength_eq_getElem (hlt.trans hk), codeLength_eq_getElem hk]
    exact List.pairwise_iff_getElem.mp (codeLengths_pairwise _ _) j k _ hk hlt

/-! ### The slots of a code -/

/-- The slot `q` is one of those the k-th code takes (41_huffman.md R143). -/
def InCode (table : PackedTable) (k q : Nat) : Prop := codeStart table k ≤ q ∧ q < codeStart table (k + 1)

theorem codeStart_mono (table : PackedTable) : Monotone (codeStart table) := fun _ _ h =>
  ((List.take_sublist_take_left h).map _).sum_le_sum fun _ _ => Nat.zero_le _

theorem InCode.lt_tableFill (hk : k < (tableLengths table).length) (h : InCode table k q) : q < tableFill table :=
  h.2.trans_le (codeStart_mono table hk)

/-- No slot is taken twice. -/
theorem InCode.unique (hj : InCode table j q) (hk : InCode table k q) : j = k := by
  obtain ⟨hjlo, hjhi⟩ := hj
  obtain ⟨hklo, hkhi⟩ := hk
  have hjk : j < k + 1 := (codeStart_mono table).reflect_lt (hjlo.trans_lt hkhi)
  have hkj : k < j + 1 := (codeStart_mono table).reflect_lt (hklo.trans_lt hjhi)
  omega

theorem exists_inCode_of_lt_codeStart {n : Nat} (h : q < codeStart table n) : ∃ k < n, InCode table k q := by
  induction n with
  | zero => exact absurd h (Nat.not_lt_zero _)
  | succ n ih =>
    rcases Nat.lt_or_ge q (codeStart table n) with hlt | hge
    · obtain ⟨k, hk, hin⟩ := ih hlt
      exact ⟨k, hk.trans n.lt_succ_self, hin⟩
    · exact ⟨n, n.lt_succ_self, hge, h⟩

/-- Every slot below FILL is some code's. -/
theorem exists_inCode (h : q < tableFill table) : ∃ k < (tableLengths table).length, InCode table k q :=
  exists_inCode_of_lt_codeStart h

/-- A code's slots are aligned to their number, as the codes before it are not longer. -/
theorem dvd_codeStart (hk : k < (tableLengths table).length) (hjk : j ≤ k) :
    2 ^ (tableMaxLen table - codeLength table k) ∣ codeStart table j := by
  induction j with
  | zero => exact Nat.dvd_zero _
  | succ j ih =>
    rw [codeStart_succ (by omega)]
    have hlen := codeLength_mono (table := table) (Nat.le_of_succ_le hjk) hk
    exact Nat.dvd_add (ih (Nat.le_of_succ_le hjk)) (Nat.pow_dvd_pow 2 (Nat.sub_le_sub_left hlen _))

theorem codeword_mul (hk : k < (tableLengths table).length) :
    codeword table k * 2 ^ (tableMaxLen table - codeLength table k) = codeStart table k := by
  rw [codeword, Nat.shiftRight_eq_div_pow, Nat.div_mul_cancel (dvd_codeStart hk le_rfl)]

/-- A slot is the k-th code's if its first bits, as many as the code has, are the codeword (30_encoding.md R94). -/
theorem inCode_iff (hk : k < (tableLengths table).length) :
    InCode table k q ↔ q / 2 ^ (tableMaxLen table - codeLength table k) = codeword table k := by
  have hpos := Nat.two_pow_pos (tableMaxLen table - codeLength table k)
  rw [InCode, codeStart_succ hk, ← codeword_mul hk, Nat.div_eq_iff hpos]
  omega

/-! ### The slots under the bits at BP -/

/-- The first slot under the `l` bits at BP, which the walk looks at after reading them (41_huffman.md R145). -/
def slotAt (table : PackedTable) (s : State) (l : Nat) : Nat :=
  bitsAt s (bitPos s) l * 2 ^ (tableMaxLen table - l)

variable {s : State} {l : Nat}

theorem slotAt_div (hjl : j ≤ l) (hl : l ≤ tableMaxLen table) :
    slotAt table s l / 2 ^ (tableMaxLen table - j) = bitsAt s (bitPos s) j := by
  obtain ⟨d, rfl⟩ := Nat.exists_eq_add_of_le hjl
  have hexp : tableMaxLen table - j = (tableMaxLen table - (j + d)) + d := by omega
  rw [slotAt, hexp, Nat.pow_add, ← Nat.div_div_eq_div_mul, Nat.mul_div_cancel _ (Nat.two_pow_pos _), bitsAt_add_div]

theorem slotAt_mono (hjl : j ≤ l) (hl : l ≤ tableMaxLen table) : slotAt table s j ≤ slotAt table s l := by
  rw [slotAt, ← slotAt_div hjl hl]
  exact Nat.div_mul_le_self _ _

/-- From its last bit on, a codeword is told by the slot. -/
theorem inCode_slotAt_iff (hk : k < (tableLengths table).length) (hkl : codeLength table k ≤ l)
    (hl : l ≤ tableMaxLen table) :
    InCode table k (slotAt table s l) ↔ bitsAt s (bitPos s) (codeLength table k) = codeword table k := by
  rw [inCode_iff hk, slotAt_div hkl hl]

/-- No codeword begins another. -/
theorem codeword_unique (hj : j < (tableLengths table).length) (hk : k < (tableLengths table).length)
    (hjk : codeLength table j ≤ codeLength table k)
    (hjbits : bitsAt s (bitPos s) (codeLength table j) = codeword table j)
    (hkbits : bitsAt s (bitPos s) (codeLength table k) = codeword table k) : j = k :=
  have hM := codeLength_le hk
  ((inCode_slotAt_iff hj hjk hM).mpr hjbits).unique ((inCode_slotAt_iff hk le_rfl hM).mpr hkbits)

/-- The `l` bits at BP leave the walk undecided: they have not left the codes and are no codeword. -/
def Undecided (table : PackedTable) (s : State) (l : Nat) : Prop :=
  slotAt table s l < tableFill table ∧
    ∀ k < (tableLengths table).length, codeLength table k = l → bitsAt s (bitPos s) l ≠ codeword table k

/-- Up to the length at which the bits leave the codes the walk is undecided, as the slots under a codeword are below FILL. -/
theorem undecided_of_unassigned (h : UnassignedAt table s l) (hjl : j < l) (hj : 1 ≤ j) : Undecided table s j := by
  obtain ⟨-, hM, -, hfill, hbelow⟩ := h
  refine ⟨hbelow j hjl hj, fun k hk hlen hbits => ?_⟩
  subst hlen
  exact absurd ((inCode_slotAt_iff hk hjl.le hM).mpr hbits |>.lt_tableFill hk) (Nat.not_lt.mpr hfill)

/-- Within a codeword the walk is undecided. -/
theorem undecided_of_codeword (hk : k < (tableLengths table).length)
    (hbits : bitsAt s (bitPos s) (codeLength table k) = codeword table k) (hj : j < codeLength table k) :
    Undecided table s j := by
  have hM := codeLength_le hk
  have hin : InCode table k (slotAt table s (codeLength table k)) := (inCode_slotAt_iff hk le_rfl hM).mpr hbits
  refine ⟨(slotAt_mono hj.le hM).trans_lt (hin.lt_tableFill hk), fun i hi hlen hbits' => ?_⟩
  subst hlen
  obtain rfl := codeword_unique hi hk hj.le hbits' hbits
  exact absurd hj (Nat.lt_irrefl _)

theorem undecided_of_truncated (h : CodewordTruncated table s) (hj : 1 ≤ j) (hleft : j ≤ bitsLeft s) :
    Undecided table s j := by
  obtain ⟨-, hnone, hbelow⟩ := h
  refine ⟨hbelow j hleft hj, fun k hk hlen => ?_⟩
  subst hlen
  exact hnone k hk hleft

/-- A truncated codeword ends before the longest codes do: bits as many as those would lie in some codeword. -/
theorem bitsLeft_lt_of_truncated (h : CodewordTruncated table s) (hM : 1 ≤ tableMaxLen table) :
    bitsLeft s < tableMaxLen table := by
  obtain ⟨-, hnone, hbelow⟩ := h
  by_contra hge
  have hge' : tableMaxLen table ≤ bitsLeft s := Nat.not_lt.mp hge
  obtain ⟨k, hk, hin⟩ := exists_inCode (hbelow (tableMaxLen table) hge' hM)
  have hlen := codeLength_le hk
  exact hnone k hk (hlen.trans hge') ((inCode_slotAt_iff hk hlen le_rfl).mp hin)

/-! ### The walk -/

/-- The walk of HDEC from `s` once `j` bits are read. -/
def walkAt (s : State) (j : Nat) : Res Symbol :=
  hdecFrom (s.maxlen.toNat - j) (j + 1) (bitsAt s (bitPos s) j) (s.setBitPos (bitPos s + j))

theorem hdec_eq_walkAt_zero (s : State) : hdec s = walkAt s 0 := by
  rw [walkAt, Nat.add_zero (bitPos s), State.setBitPos_bitPos]
  rfl

/-- DATA ends after `j` bits. -/
theorem walkAt_of_none_left (hT : HoldsTable table s) (hj : j < tableMaxLen table) (hleft : bitsLeft s = j) :
    walkAt s j = .raised ((s.setBitPos (bitPos s + j)).raise .dataExhausted) := by
  obtain ⟨-, -, hmaxlen, -⟩ := hT
  obtain ⟨n, hn⟩ := Nat.exists_eq_add_one_of_ne_zero (Nat.sub_ne_zero_of_lt hj)
  have hnone : bitsLeft (s.setBitPos (bitPos s + j)) = 0 := by rw [bitsLeft_setBitPos_add hleft.ge, hleft, Nat.sub_self]
  rw [walkAt, hmaxlen, hn, hdecFrom, rdbit_of_none_left hnone, Res.bind_raised]

/-- With a bit left the walk reads it and looks at the slot under the bits read. -/
theorem walkAt_of_left (hT : HoldsTable table s) (hj : j < tableMaxLen table) (hleft : j < bitsLeft s) :
    walkAt s j =
      if tableFill table ≤ slotAt table s (j + 1) then
        .raised ((s.setBitPos (bitPos s + (j + 1))).raise .codeUnassigned)
      else (storeGet s.hslot (slotAt table s (j + 1))).elim (walkAt s (j + 1)) fun e =>
        if e.clen.toNat = j + 1 then
          .ok ⟨j + 1, bitsAt s (bitPos s) (j + 1), e.payload⟩ (s.setBitPos (bitPos s + (j + 1)))
        else walkAt s (j + 1) := by
  obtain ⟨-, -, hmaxlen, hfill, -⟩ := hT
  have hn : tableMaxLen table - j = (tableMaxLen table - (j + 1)) + 1 := by omega
  have hbit : 0 < bitsLeft (s.setBitPos (bitPos s + j)) := by rw [bitsLeft_setBitPos_add hleft.le]; omega
  rw [walkAt, hmaxlen, hn, hdecFrom, rdbit_of_left hbit, Res.bind_ok, bitPos_setBitPos_add hleft.le]
  simp only [State.setBitPos_setBitPos, State.setBitPos_maxlen, State.setBitPos_fill, State.setBitPos_hslot, hmaxlen, hfill,
    Nat.shiftLeft_eq, slotAt, walkAt, bitsAt_succ, dataBit_setBitPos, Nat.add_assoc]
  congr 1
  generalize storeGet s.hslot _ = e
  cases e <;> rfl

/-- The walk ends with the bit that leaves the codes. -/
theorem walkAt_of_fill_le (hT : HoldsTable table s) (hj : j < tableMaxLen table) (hleft : j < bitsLeft s)
    (h : tableFill table ≤ slotAt table s (j + 1)) :
    walkAt s j = .raised ((s.setBitPos (bitPos s + (j + 1))).raise .codeUnassigned) := by
  rw [walkAt_of_left hT hj hleft, if_pos h]

/-- At a slot of the k-th code the walk ends if the code has as many bits as were read. -/
theorem walkAt_of_inCode (hT : HoldsTable table s) (hj : j < tableMaxLen table) (hleft : j < bitsLeft s)
    (hk : k < (tableLengths table).length) (hin : InCode table k (slotAt table s (j + 1))) :
    walkAt s j =
      if codeLength table k = j + 1 then
        .ok ⟨j + 1, bitsAt s (bitPos s) (j + 1), codePayload table k⟩ (s.setBitPos (bitPos s + (j + 1)))
      else walkAt s (j + 1) := by
  have ⟨_, _, _, _, hslots, _⟩ := hT
  have hlen : (BitVec.ofNat 5 (codeLength table k)).toNat = codeLength table k := by
    have hle := (codeLength_le hk).trans (tableMaxLen_le table)
    rw [BitVec.toNat_ofNat, Nat.mod_eq_of_lt (by omega)]
  rw [walkAt_of_left hT hj hleft, if_neg (Nat.not_le.mpr (hin.lt_tableFill hk)), hslots k hk _ hin.1 hin.2, Option.elim_some,
    hlen]

/-- Undecided, the walk goes on. -/
theorem walkAt_of_undecided (hT : HoldsTable table s) (hj : j < tableMaxLen table) (hleft : j < bitsLeft s)
    (h : Undecided table s (j + 1)) : walkAt s j = walkAt s (j + 1) := by
  obtain ⟨hfill, hnone⟩ := h
  obtain ⟨k, hk, hin⟩ := exists_inCode hfill
  rw [walkAt_of_inCode hT hj hleft hk hin]
  refine if_neg fun hlen => hnone k hk hlen ?_
  rw [← hlen] at hin ⊢
  exact (inCode_slotAt_iff hk le_rfl (codeLength_le hk)).mp hin

/-- HDEC comes to the walk after `j` bits if it was undecided until then. -/
theorem hdec_eq_walkAt (hT : HoldsTable table s) (hj : j ≤ tableMaxLen table) (hleft : j ≤ bitsLeft s)
    (h : ∀ i ≤ j, 1 ≤ i → Undecided table s i) : hdec s = walkAt s j := by
  induction j with
  | zero => exact hdec_eq_walkAt_zero s
  | succ j ih =>
    rw [ih (by omega) (by omega) fun i hi => h i (hi.trans j.le_succ)]
    exact walkAt_of_undecided hT hj hleft (h (j + 1) le_rfl j.succ_pos)

/-! ### What HDEC answers -/

/-- With the k-th codeword next HDEC answers it with its payload, BP past it (41_huffman.md R145). -/
theorem hdec_of_codeword (hT : HoldsTable table s) (hk : k < (tableLengths table).length)
    (hleft : codeLength table k ≤ bitsLeft s)
    (hbits : bitsAt s (bitPos s) (codeLength table k) = codeword table k) :
    hdec s = .ok ⟨codeLength table k, codeword table k, codePayload table k⟩
      (s.setBitPos (bitPos s + codeLength table k)) := by
  have hpos := codeLength_pos hk
  have hM := codeLength_le hk
  have hin : InCode table k (slotAt table s (codeLength table k)) := (inCode_slotAt_iff hk le_rfl hM).mpr hbits
  obtain ⟨j, hj⟩ := Nat.exists_eq_add_of_le' hpos
  rw [hdec_eq_walkAt (j := j) hT (by omega) (by omega) fun i hi _ => undecided_of_codeword hk hbits (by omega),
    walkAt_of_inCode hT (by omega) (by omega) hk (hj ▸ hin), if_pos hj, ← hj, hbits]

/-- Where DATA ends inside a codeword HDEC faults with BP at the end of DATA (40_bitreader.md R122). -/
theorem hdec_of_truncated (hT : HoldsTable table s) (h : CodewordTruncated table s) :
    hdec s = .raised ((s.setBp s.srclen 0).raise .dataExhausted) := by
  have ⟨⟨hM, _⟩, _⟩ := hT
  have ⟨hle, _⟩ := h
  have hlt := bitsLeft_lt_of_truncated h (Nat.one_le_iff_ne_zero.mpr hM)
  rw [hdec_eq_walkAt hT hlt.le le_rfl fun i hi hpos => undecided_of_truncated h hpos hi,
    walkAt_of_none_left hT hlt rfl, setBitPos_add_bitsLeft hle]

/-- Where the bits leave the codes HDEC faults with BP after the bit that does (R145). -/
theorem hdec_of_unassigned (hT : HoldsTable table s) (h : UnassignedAt table s l) :
    hdec s = .raised ((s.setBitPos (bitPos s + l)).raise .codeUnassigned) := by
  have ⟨hpos, hM, hleft, hfill, _⟩ := h
  obtain ⟨j, rfl⟩ := Nat.exists_eq_add_of_le' hpos
  rw [hdec_eq_walkAt (j := j) hT (by omega) (by omega) fun i hi hi1 => undecided_of_unassigned h (by omega) hi1,
    walkAt_of_fill_le hT hM hleft hfill]

end Sys2Proof.Machine
end

section
/-! PROOFS. The statements of 40_bitreader.md: BRST, and STEP over a record that cannot be fetched. -/

namespace Sys2Proof.Machine

/-- Settles O36: BRST is BRRESET, which moves BP only off a byte boundary (40_bitreader.md R124). -/
theorem brstAligns : Obligations.BrstAligns := by
  intro s hrun
  have hnot : s.run ≠ .fault := by rcases hrun with h | h <;> simp [h]
  change gate allowIdleActive s (.next (brreset s)) = _
  rw [gate_allowed hnot (allowIdleActive_iff.mpr hrun), brreset, ite_not]
  rfl

/-- A record that HDEC does not get past is not fetched. -/
theorem fetchRecord_of_hdec_raised {s t : State} (h : hdec s = .raised t) : fetchRecord s = .raised t := by
  rw [fetchRecord, h, Res.bind_raised]

/-- A record whose raw bits are cut off is not fetched (R123). -/
theorem fetchRecord_of_raw_short {table : PackedTable} {s : State} {k : Nat} (hT : HoldsTable table s)
    (hk : k < (tableLengths table).length) (hle : bitPos s ≤ 8 * s.srclen.toNat) (hleft : codeLength table k ≤ bitsLeft s)
    (hshort : bitsLeft s < codeLength table k + payloadRawBits (codePayload table k))
    (hbits : bitsAt s (bitPos s) (codeLength table k) = codeword table k) :
    fetchRecord s = .raised ((s.setBp s.srclen 0).raise .dataExhausted) := by
  have hshort' : bitsLeft (s.setBitPos (bitPos s + codeLength table k)) < payloadRawBits (codePayload table k) := by
    rw [bitsLeft_setBitPos_add hleft]
    omega
  rw [fetchRecord, hdec_of_codeword hT hk hleft hbits, Res.bind_ok,
    rdbits_of_short (bitPos_setBitPos_add_le hle hleft) hshort', Res.bind_raised]
  rfl

/-- Away from the split row a STEP over a record that is not fetched leaves what the fetch left. -/
theorem exec_step_of_fetch_raised {s t : State} (hrun : s.run = .active) (hdue : splitDue s = false)
    (h : fetchRecord s = .raised t) : exec .step s = .next t := by
  rw [exec_step_of_active hrun, pixStep_of_not_due hdue, pixBody, h, Res.bind_raised, Res.state_raised]

/-- Settles O24: each of the three is a fetch that raises, in the raw bits or in HDEC. -/
theorem stepOverTruncatedRecord : Obligations.StepOverTruncatedRecord := by
  intro s table hrun hdue hT
  refine ⟨fun k hk hle hleft hshort hbits => ?_, fun htrunc => ?_, fun l hun => ?_⟩
  all_goals refine exec_step_of_fetch_raised hrun hdue ?_
  · exact fetchRecord_of_raw_short hT hk hle hleft hshort hbits
  · exact fetchRecord_of_hdec_raised (hdec_of_truncated hT htrunc)
  · exact fetchRecord_of_hdec_raised (hdec_of_unassigned hT hun)

end Sys2Proof.Machine
end

section
/-! PROOFS. The build of a table: the slots after each code assigned, the first code that fails a check, and what HBUILD
answers (41_huffman.md R142 to R144). -/

namespace Sys2Proof.Machine

variable {table : PackedTable} {k : Nat}

/-! ### The codes that pass -/

/-- The k-th code passes the two checks that assignment makes: its slots lie below `2^MAXLEN`, and its payload has
shl <= len (41_huffman.md R142, checks 3 and 4). -/
def CodePasses (table : PackedTable) (k : Nat) : Prop :=
  codeStart table (k + 1) ≤ 2 ^ tableMaxLen table ∧
    payloadShl (codePayload table k) ≤ payloadLen (codePayload table k)

@[simp] theorem codeStart_zero (table : PackedTable) : codeStart table 0 = 0 := rfl

/-- The codes end where the last of them does. -/
theorem codeStart_le_of_pass (h : ∀ j < k, CodePasses table j) : codeStart table k ≤ 2 ^ tableMaxLen table := by
  cases k with
  | zero => exact Nat.zero_le _
  | succ k => exact (h k k.lt_succ_self).1

/-- With the counts in order, a table builds if and only if each of its codes passes. -/
theorem buildable_iff_codes_pass (hM : tableMaxLen table ≠ 0) (hsum : sumCounts table 16 ≤ 16) :
    Buildable table ↔ ∀ k < (tableLengths table).length, CodePasses table k := by
  constructor
  · rintro ⟨-, -, hfill, hpay⟩ k hk
    exact ⟨(codeStart_mono table hk).trans hfill, hpay k hk⟩
  · exact fun h => ⟨hM, hsum, codeStart_le_of_pass h, fun k hk => (h k hk).2⟩

/-- A code that fails does not pass. -/
theorem FailsAt.not_pass {c : FaultCause} (h : FailsAt table k c) : ¬ CodePasses table k := by
  rintro ⟨hstart, hpay⟩
  obtain ⟨-, -, ⟨hover, -⟩ | ⟨-, hbad, -⟩⟩ := h
  · exact Nat.not_lt.mpr hstart hover
  · exact Nat.not_lt.mpr hpay hbad

/-- MAXLEN and the length of a slot hold any length of a table. -/
theorem toNat_ofNat_length {l : Nat} (h : l ≤ tableMaxLen table) : (BitVec.ofNat 5 l).toNat = l := by
  have hle := h.trans (tableMaxLen_le table)
  rw [BitVec.toNat_ofNat, Nat.mod_eq_of_lt (by omega)]

/-! ### The slots of the codes assigned so far -/

theorem slotsBefore_length {slots : List (Nat × Slot)} :
    SlotsBefore table (tableLengths table).length slots ↔ SlotsOf table slots := Iff.rfl

/-- Before the first code every slot below `2^MAXLEN` is cleared. -/
theorem slotsBefore_zero (table : PackedTable) (m : List (Nat × Slot)) :
    SlotsBefore table 0 (storeClearBelow m (2 ^ tableMaxLen table)) := by
  refine ⟨fun k hk => absurd hk k.not_lt_zero, fun q _ hq => ?_⟩
  rw [storeGet_storeClearBelow, if_neg (Nat.not_le.mpr hq)]

/-- The next code takes its slots and leaves those of the codes before it. -/
theorem SlotsBefore.succ {slots : List (Nat × Slot)} (hk : k < (tableLengths table).length)
    (h : SlotsBefore table k slots) :
    SlotsBefore table (k + 1) (storeSetRange slots (codeStart table k) (2 ^ (tableMaxLen table - codeLength table k))
      ⟨BitVec.ofNat 5 (codeLength table k), codePayload table k⟩) := by
  obtain ⟨hassigned, hfree⟩ := h
  have hmono := codeStart_mono table
  refine ⟨fun j hj q hlo hhi => ?_, fun q hlo hhi => ?_⟩ <;> rw [storeGet_storeSetRange, ← codeStart_succ hk]
  · rcases Nat.lt_succ_iff_lt_or_eq.mp hj with hlt | rfl
    · rw [if_neg fun hin => Nat.not_lt.mpr hin.1 (hhi.trans_le (hmono hlt)), hassigned j hlt q hlo hhi]
    · rw [if_pos ⟨hlo, hhi⟩]
  · rw [if_neg fun hin => Nat.not_lt.mpr hlo hin.2, hfree q ((hmono k.le_succ).trans hlo) hhi]

/-! ### Slot assignment -/

/-- Assignment of the codes from the k-th on, the codes before it standing in the slots `m`: all pass and fill the table, or
it ends at the first that fails. Slots at and beyond `2^MAXLEN` are not touched (R143, R144). -/
theorem assignCodes_outcome (s : State) {m : List (Nat × Slot)} (hk : k ≤ (tableLengths table).length)
    (hpass : ∀ j < k, CodePasses table j) (hm : SlotsBefore table k m) :
    ∃ slots, (∀ q, 2 ^ tableMaxLen table ≤ q → storeGet slots q = storeGet m q) ∧
      ((assignCodes table (tableMaxLen table) ((tableLengths table).drop k) (codeStart table k) k { s with hslot := m } =
            .ok (tableFill table) { s with hslot := slots } ∧
          SlotsOf table slots ∧ ∀ j < (tableLengths table).length, CodePasses table j) ∨
        ∃ j c, FailsAt table j c ∧ SlotsBefore table j slots ∧
          assignCodes table (tableMaxLen table) ((tableLengths table).drop k) (codeStart table k) k
              { s with hslot := m } =
            .raised (({ s with hslot := slots } : State).raise c)) := by
  induction hn : (tableLengths table).length - k generalizing k m with
  | zero =>
    obtain rfl : k = (tableLengths table).length := by omega
    rw [List.drop_length]
    exact ⟨m, fun _ _ => rfl, .inl ⟨rfl, slotsBefore_length.mp hm, hpass⟩⟩
  | succ n ih =>
    have hlt : k < (tableLengths table).length := by omega
    rw [List.drop_eq_getElem_cons hlt, ← codeLength_eq_getElem hlt, assignCodes]
    dsimp only
    rw [← codeStart_succ hlt]
    split
    · rename_i hover
      exact ⟨m, fun _ _ => rfl, .inr ⟨k, _, ⟨hlt, hpass, .inl ⟨hover, rfl⟩⟩, hm, rfl⟩⟩
    · rename_i hfits
      have hstart : codeStart table (k + 1) ≤ 2 ^ tableMaxLen table := Nat.not_lt.mp hfits
      split
      · rename_i hbad
        exact ⟨m, fun _ _ => rfl, .inr ⟨k, _, ⟨hlt, hpass, .inr ⟨hstart, hbad, rfl⟩⟩, hm, rfl⟩⟩
      · rename_i hgood
        have hpass' : ∀ j < k + 1, CodePasses table j := fun j hj => by
          rcases Nat.lt_succ_iff_lt_or_eq.mp hj with hj | rfl
          · exact hpass j hj
          · exact ⟨hstart, Nat.not_lt.mp hgood⟩
        obtain ⟨slots, hkeep, hout⟩ := ih hlt hpass' (hm.succ hlt) (by omega)
        refine ⟨slots, fun q hq => ?_, hout⟩
        have hbeyond : ¬ q < codeStart table (k + 1) := Nat.not_lt.mpr (hstart.trans hq)
        rw [hkeep q hq, storeGet_storeSetRange, ← codeStart_succ hlt, if_neg fun hin => hbeyond hin.2]

/-! ### HBUILD -/

/-- With the counts in order HBUILD clears the slots below `2^MAXLEN` and assigns the codes (41_huffman.md R144). -/
theorem hbuild_of_counts {t : Nat} {s : State} (htable : hromTable s t = table) (hM : tableMaxLen table ≠ 0)
    (hsum : sumCounts table 16 ≤ 16) :
    hbuild t s =
      (assignCodes table (tableMaxLen table) (tableLengths table) 0 0
        { s with
          tvalid := false, maxlen := BitVec.ofNat 5 (tableMaxLen table)
          hslot := storeClearBelow s.hslot (2 ^ tableMaxLen table) }).bind fun p s3 =>
        .ok () { s3 with fill := BitVec.ofNat 17 p, tsel := BitVec.ofNat 3 t, tvalid := true } := by
  rw [hbuild, htable]
  exact (if_neg hM).trans (if_neg (Nat.not_lt.mpr hsum))

/-- With the counts in order HBUILD builds the table, each code passing, or faults at the first code that does not (R144). -/
theorem hbuild_outcome {t : Nat} {s : State} (htable : hromTable s t = table) (hM : tableMaxLen table ≠ 0)
    (hsum : sumCounts table 16 ≤ 16) :
    ∃ slots, (∀ q, 2 ^ tableMaxLen table ≤ q → storeGet slots q = storeGet s.hslot q) ∧
      ((hbuild t s = .ok () (withTable table t slots s) ∧ SlotsOf table slots ∧ Buildable table) ∨
        ∃ k c, FailsAt table k c ∧ SlotsBefore table k slots ∧
          hbuild t s = .raised (({ s with
            tvalid := false, hslot := slots, maxlen := BitVec.ofNat 5 (tableMaxLen table) } : State).raise c)) := by
  obtain ⟨slots, hkeep, hout⟩ := assignCodes_outcome
    { s with tvalid := false, maxlen := BitVec.ofNat 5 (tableMaxLen table) }
    (Nat.zero_le _) (fun j hj => absurd hj j.not_lt_zero) (slotsBefore_zero table s.hslot)
  rw [List.drop_zero, codeStart_zero] at hout
  refine ⟨slots, fun q hq => by rw [hkeep q hq, storeGet_storeClearBelow, if_pos hq], ?_⟩
  rw [hbuild_of_counts htable hM hsum]
  rcases hout with ⟨hok, hslots, hpass⟩ | ⟨k, c, hfail, hslots, hraised⟩
  · exact .inl ⟨by rw [hok]; rfl, hslots, (buildable_iff_codes_pass hM hsum).mpr hpass⟩
  · exact .inr ⟨k, c, hfail, hslots, by rw [hraised]; rfl⟩

/-- HBUILD builds a table that passes the checks (R143, R144). -/
theorem hbuild_of_buildable {t : Nat} {s : State} (htable : hromTable s t = table) (h : Buildable table) :
    ∃ slots, hbuild t s = .ok () (withTable table t slots s) ∧ SlotsOf table slots ∧
      ∀ q, 2 ^ tableMaxLen table ≤ q → storeGet slots q = storeGet s.hslot q := by
  have ⟨hM, hsum, _⟩ := h
  obtain ⟨slots, hkeep, ⟨hok, hslots, -⟩ | ⟨k, c, hfail, -⟩⟩ := hbuild_outcome htable hM hsum
  · exact ⟨slots, hok, hslots, hkeep⟩
  · exact absurd ((buildable_iff_codes_pass hM hsum).mp h k hfail.1) hfail.not_pass

/-- HBUILD faults on a table that does not pass, with the cause of the first check that fails (R142, R144). -/
theorem hbuild_of_not_buildable {t : Nat} {s : State} (htable : hromTable s t = table) (h : ¬ Buildable table) :
    ∃ (c : FaultCause) (m : BitVec 5) (slots : List (Nat × Slot)), FailedBuild table s c m slots ∧
      hbuild t s = .raised (({ s with tvalid := false, hslot := slots, maxlen := m } : State).raise c) := by
  by_cases hM : tableMaxLen table = 0
  · exact ⟨.maxlenZero, s.maxlen, s.hslot, .inl ⟨hM, rfl, rfl, rfl⟩, by rw [hbuild, htable]; exact if_pos hM⟩
  by_cases hsum : 16 < sumCounts table 16
  · refine ⟨.tooManySymbols, s.maxlen, s.hslot, .inr (.inl ⟨hM, hsum, rfl, rfl, rfl⟩), ?_⟩
    rw [hbuild, htable]
    exact (if_neg hM).trans (if_pos hsum)
  obtain ⟨slots, hkeep, ⟨-, -, hb⟩ | ⟨k, c, hfail, hslots, hraised⟩⟩ := hbuild_outcome htable hM (Nat.not_lt.mp hsum)
  · exact absurd hb h
  · exact ⟨c, _, slots, .inr (.inr ⟨hM, Nat.not_lt.mp hsum, rfl, k, hfail, hslots, hkeep⟩), hraised⟩

end Sys2Proof.Machine
end

section
/-! PROOFS. The flat realisation of HDEC: its lookahead by the bits at BP, the least length that leaves the codes, and what it
answers where the walk does (41_huffman.md R150, 40_bitreader.md R126). -/

namespace Sys2Proof.Machine

variable {table : PackedTable} {s : State} {k : Nat}

/-! ### The lookahead -/

/-- The bit of the lookahead `n` bits on from BP, 0 at or beyond (SRCLEN, 0) (40_bitreader.md R126). -/
def peekBit (s : State) (n : Nat) : Bool :=
  decide ((bitPos s + n) / 8 < s.srclen.toNat) && dataBit s ((bitPos s + n) / 8) ((bitPos s + n) % 8)

theorem peekBit_of_left {n : Nat} (h : n < bitsLeft s) :
    peekBit s n = dataBit s ((bitPos s + n) / 8) ((bitPos s + n) % 8) := by
  have hin : (bitPos s + n) / 8 < s.srclen.toNat := by
    rw [bitsLeft] at h
    omega
  rw [peekBit, decide_eq_true hin, Bool.true_and]

theorem peek_succ (n : Nat) (s : State) : peek (n + 1) s = 2 * peek n s + (peekBit s n).toNat := by
  simp [peek, peekBit, natOfBits, List.range_succ]

/-- As far as DATA has bits the lookahead is those bits (R126). -/
theorem peek_of_left {n : Nat} (h : n ≤ bitsLeft s) : peek n s = bitsAt s (bitPos s) n := by
  induction n with
  | zero => rfl
  | succ n ih => rw [peek_succ, ih (Nat.le_of_succ_le h), peekBit_of_left h, bitsAt_succ]

theorem peek_lt (n : Nat) (s : State) : peek n s < 2 ^ n := by
  induction n with
  | zero => exact Nat.zero_lt_one
  | succ n ih =>
    have hbit := Bool.toNat_lt (peekBit s n)
    rw [peek_succ, Nat.pow_succ]
    omega

/-- The first bits of a lookahead are a shorter lookahead. -/
theorem peek_add_div (s : State) (m n : Nat) : peek (m + n) s / 2 ^ n = peek m s := by
  induction n with
  | zero => simp
  | succ n ih =>
    have hbit := Bool.toNat_lt (peekBit s (m + n))
    have hhalf : peek (m + n + 1) s / 2 = peek (m + n) s := by rw [peek_succ]; omega
    rw [← Nat.add_assoc, Nat.pow_succ', ← Nat.div_div_eq_div_mul, hhalf, ih]

/-- The first bits of the lookahead, as far as DATA has them, are those at BP. -/
theorem peek_div {m j : Nat} (hjm : j ≤ m) (hj : j ≤ bitsLeft s) : peek m s / 2 ^ (m - j) = bitsAt s (bitPos s) j := by
  obtain ⟨d, rfl⟩ := Nat.exists_eq_add_of_le hjm
  rw [Nat.add_sub_cancel_left, peek_add_div, peek_of_left hj]

/-! ### The least length that leaves the codes -/

/-- `leastOpen` answers a length whose first slot is at or beyond FILL, and no shorter one does, if that of the longest
length asked for does (41_huffman.md R150). -/
theorem leastOpen_spec {m fill i n l : Nat} (hend : fill ≤ (i >>> (m - (l + n))) <<< (m - (l + n))) :
    let c := leastOpen m fill i n l
    l ≤ c ∧ c ≤ l + n ∧ fill ≤ (i >>> (m - c)) <<< (m - c) ∧
      ∀ j, l ≤ j → j < c → (i >>> (m - j)) <<< (m - j) < fill := by
  induction n generalizing l with
  | zero => exact ⟨le_rfl, le_rfl, hend, fun j hlo hhi => absurd hhi (Nat.not_lt.mpr hlo)⟩
  | succ n ih =>
    rw [leastOpen]
    split
    · rename_i hopen
      exact ⟨le_rfl, Nat.le_add_right _ _, hopen, fun j hlo hhi => absurd hhi (Nat.not_lt.mpr hlo)⟩
    · rename_i hclosed
      have hnext : l + 1 + n = l + (n + 1) := by omega
      obtain ⟨hlo, hhi, hopen, hbelow⟩ := ih (l := l + 1) (by rwa [hnext])
      refine ⟨by omega, by omega, hopen, fun j hj hjc => ?_⟩
      rcases Nat.eq_or_lt_of_le hj with rfl | hlt
      · exact Nat.not_le.mp hclosed
      · exact hbelow j hlt hjc

/-! ### The walk under the lookahead -/

/-- The slot the walk looks at, by the lookahead. -/
theorem slotAt_eq_peek {j : Nat} (hj : j ≤ tableMaxLen table) (hleft : j ≤ bitsLeft s) :
    slotAt table s j =
      (peek (tableMaxLen table) s >>> (tableMaxLen table - j)) <<< (tableMaxLen table - j) := by
  rw [slotAt, Nat.shiftRight_eq_div_pow, Nat.shiftLeft_eq, peek_div hj hleft]

/-- A codeword that is whole in the bits left is told by the lookahead. -/
theorem inCode_peek_iff (hk : k < (tableLengths table).length) (hleft : codeLength table k ≤ bitsLeft s) :
    InCode table k (peek (tableMaxLen table) s) ↔
      bitsAt s (bitPos s) (codeLength table k) = codeword table k := by
  rw [inCode_iff hk, peek_div (codeLength_le hk) hleft]

/-- Where the bits left are undecided and fewer than the longest code's, HDEC finds no more, BP after the last of them. -/
theorem hdec_of_exhausted (hT : HoldsTable table s) (hlt : bitsLeft s < tableMaxLen table)
    (h : ∀ j ≤ bitsLeft s, 1 ≤ j → Undecided table s j) :
    hdec s = .raised ((s.setBitPos (bitPos s + bitsLeft s)).raise .dataExhausted) := by
  rw [hdec_eq_walkAt hT hlt.le le_rfl h, walkAt_of_none_left hT hlt rfl]

/-- Bits cut off inside the code that the lookahead selects are undecided. -/
theorem undecided_of_inCode_peek (hk : k < (tableLengths table).length)
    (hin : InCode table k (peek (tableMaxLen table) s)) {j : Nat} (hj : j < codeLength table k)
    (hleft : j ≤ bitsLeft s) : Undecided table s j := by
  have hM := hj.le.trans (codeLength_le hk)
  refine ⟨?_, fun i hi hlen hbits => ?_⟩
  · rw [slotAt_eq_peek hM hleft, Nat.shiftRight_eq_div_pow, Nat.shiftLeft_eq]
    exact (Nat.div_mul_le_self _ _).trans_lt (hin.lt_tableFill hk)
  · subst hlen
    obtain rfl := ((inCode_peek_iff hi hleft).mpr hbits).unique hin
    exact absurd hj (Nat.lt_irrefl _)

/-- Bits whose slot is below FILL, under a lookahead beyond it, are undecided: a whole codeword would hold the lookahead. -/
theorem undecided_of_fill_le_peek (hfill : tableFill table ≤ peek (tableMaxLen table) s) {j : Nat}
    (hslot : slotAt table s j < tableFill table) (hleft : j ≤ bitsLeft s) : Undecided table s j := by
  refine ⟨hslot, fun k hk hlen hbits => ?_⟩
  subst hlen
  exact Nat.not_lt.mpr hfill (((inCode_peek_iff hk hleft).mpr hbits).lt_tableFill hk)

/-! ### The two realisations -/

/-- The flat realisation where the lookahead selects the k-th code. -/
theorem hdecFlat_of_inCode (hT : HoldsTable table s) (hk : k < (tableLengths table).length)
    (hin : InCode table k (peek (tableMaxLen table) s)) :
    hdecFlat s =
      if bitsLeft s < codeLength table k then .raised ((s.setBitPos (bitPos s + bitsLeft s)).raise .dataExhausted)
      else .ok ⟨codeLength table k, codeword table k, codePayload table k⟩
        (s.setBitPos (bitPos s + codeLength table k)) := by
  obtain ⟨-, -, hmaxlen, hfill, hslots, -⟩ := hT
  have hcode : peek (tableMaxLen table) s >>> (tableMaxLen table - codeLength table k) = codeword table k := by
    rw [Nat.shiftRight_eq_div_pow, (inCode_iff hk).mp hin]
  simp only [hdecFlat, hmaxlen, hfill, if_pos (hin.lt_tableFill hk), hslots k hk _ hin.1 hin.2,
    toNat_ofNat_length (codeLength_le hk), hcode]

/-- The flat realisation where the lookahead is beyond FILL. -/
theorem hdecFlat_of_fill_le (hT : HoldsTable table s) (h : tableFill table ≤ peek (tableMaxLen table) s) :
    let c := leastOpen (tableMaxLen table) (tableFill table) (peek (tableMaxLen table) s) (tableMaxLen table - 1) 1
    hdecFlat s =
      if bitsLeft s < c then .raised ((s.setBitPos (bitPos s + bitsLeft s)).raise .dataExhausted)
      else .raised ((s.setBitPos (bitPos s + c)).raise .codeUnassigned) := by
  obtain ⟨-, -, hmaxlen, hfill, -⟩ := hT
  simp only [hdecFlat, hmaxlen, hfill, if_neg (Nat.not_lt.mpr h)]

theorem hdecFlat_eq_hdec_of_inCode (hT : HoldsTable table s) (hk : k < (tableLengths table).length)
    (hin : InCode table k (peek (tableMaxLen table) s)) : hdecFlat s = hdec s := by
  rw [hdecFlat_of_inCode hT hk hin]
  split
  · rename_i hshort
    exact (hdec_of_exhausted hT (hshort.trans_le (codeLength_le hk)) fun j hj _ =>
      undecided_of_inCode_peek hk hin (hj.trans_lt hshort) hj).symm
  · rename_i hwhole
    have hleft : codeLength table k ≤ bitsLeft s := Nat.not_lt.mp hwhole
    exact (hdec_of_codeword hT hk hleft ((inCode_peek_iff hk hleft).mp hin)).symm

theorem hdecFlat_eq_hdec_of_fill_le (hT : HoldsTable table s) (h : tableFill table ≤ peek (tableMaxLen table) s) :
    hdecFlat s = hdec s := by
  have ⟨⟨hM, _⟩, _⟩ := hT
  have hlast : 1 + (tableMaxLen table - 1) = tableMaxLen table := by omega
  obtain ⟨hpos, hle, hopen, hbelow⟩ := leastOpen_spec (m := tableMaxLen table) (fill := tableFill table)
    (i := peek (tableMaxLen table) s) (n := tableMaxLen table - 1) (l := 1) (by simpa [hlast] using h)
  rw [hdecFlat_of_fill_le hT h]
  generalize leastOpen _ _ _ _ _ = c at *
  have hcM : c ≤ tableMaxLen table := hlast ▸ hle
  have hclosed : ∀ j < c, 1 ≤ j → j ≤ bitsLeft s → slotAt table s j < tableFill table := fun j hj hj1 hleft => by
    rw [slotAt_eq_peek (hj.le.trans hcM) hleft]
    exact hbelow j hj1 hj
  split
  · rename_i hshort
    exact (hdec_of_exhausted hT (hshort.trans_le hcM) fun j hj hj1 =>
      undecided_of_fill_le_peek h (hclosed j (hj.trans_lt hshort) hj1 hj) hj).symm
  · rename_i hwhole
    have hleft : c ≤ bitsLeft s := Nat.not_lt.mp hwhole
    have hfill : tableFill table ≤ slotAt table s c := by rwa [slotAt_eq_peek hcM hleft]
    exact (hdec_of_unassigned hT
      ⟨hpos, hcM, hleft, hfill, fun j hj hj1 => hclosed j hj hj1 (hj.le.trans hleft)⟩).symm

end Sys2Proof.Machine
end

section
/-! PROOFS. The statements of 41_huffman.md: HBLD, HDEC, the flat realisation, and an HROM whose tables are complete. -/

namespace Sys2Proof.Machine

variable {table : PackedTable} {s : State}

/-! ### HBLD -/

/-- In IDLE, HBLD t for t at most 5 is HBUILD(t) (44_host_commands.md R239). -/
theorem exec_hbld_of_idle {n : Byte} (hrun : s.run = .idle) (hn : n.toNat ≤ 5) :
    exec (.hbld n) s = .next (hbuild n.toNat s).state := by
  have hf : s.run ≠ .fault := by simp [hrun]
  change execHbld n s = _
  rw [execHbld, if_neg hf, if_neg (Nat.not_lt.mpr hn), gate_allowed hf (allowIdle_iff.mpr hrun)]

/-- Settles O31: the build of a table that passes the checks. -/
theorem hbldBuildsTheTable : Obligations.HbldBuildsTheTable := by
  intro n s hrun hn hb
  obtain ⟨slots, hok, hslots, hkeep⟩ := hbuild_of_buildable rfl hb
  exact ⟨slots, by rw [exec_hbld_of_idle hrun hn, hok, Res.state_ok], hslots, hkeep⟩

/-- Settles O32: the build of a table that does not. -/
theorem hbldBuildFaults : Obligations.HbldBuildFaults := by
  intro n s hrun hn hb
  obtain ⟨c, m, slots, hfailed, hraised⟩ := hbuild_of_not_buildable rfl hb
  exact ⟨c, m, slots, hfailed, by rw [exec_hbld_of_idle hrun hn, hraised, Res.state_raised]⟩

/-! ### HDEC -/

/-- Where HDEC may run and a table is held, the command is the decoder's walk, its payload put into RESULT
(44_host_commands.md R247). -/
theorem exec_hdec_of_holdsTable (hrun : s.run = .idle ∨ s.run = .active) (hT : HoldsTable table s) :
    exec .hdec s =
      .next ((hdec s).bind fun sym s1 => .ok () { s1 with result := sym.payload.setWidth 16 }).state := by
  obtain ⟨-, hvalid, -⟩ := hT
  have hf : s.run ≠ .fault := by rcases hrun with h | h <;> simp [h]
  change execHdec s = _
  rw [execHdec, gate_allowed hf (allowIdleActive_iff.mpr hrun), if_pos hvalid]

/-- Settles O33: the three ends of the walk, each put through the command. -/
theorem hdecReadsTheCodeword : Obligations.HdecReadsTheCodeword := by
  intro s table hrun hT
  rw [exec_hdec_of_holdsTable hrun hT]
  refine ⟨fun k hk hleft hbits => ?_, fun htrunc => ?_, fun l hun => ?_⟩
  · rw [hdec_of_codeword hT hk hleft hbits, Res.bind_ok, Res.state_ok]
  · rw [hdec_of_truncated hT htrunc, Res.bind_raised, Res.state_raised]
  · rw [hdec_of_unassigned hT hun, Res.bind_raised, Res.state_raised]

/-- Settles O34: the lookahead lies in the slots of a code, or beyond them all. -/
theorem flatDecoderAgrees : Obligations.FlatDecoderAgrees := by
  intro s table hT
  rcases Nat.lt_or_ge (peek (tableMaxLen table) s) (tableFill table) with hlt | hge
  · obtain ⟨k, hk, hin⟩ := exists_inCode hlt
    exact hdecFlat_eq_hdec_of_inCode hT hk hin
  · exact hdecFlat_eq_hdec_of_fill_le hT hge

/-! ### Complete tables -/

/-- A table whose FILL is `2^MAXLEN`, once built, has FILL and MAXLEN say so. -/
theorem withTable_fill_of_complete (h : tableFill table = 2 ^ tableMaxLen table) (t : Nat)
    (slots : List (Nat × Slot)) (s : State) :
    (withTable table t slots s).fill.toNat = 2 ^ (withTable table t slots s).maxlen.toNat := by
  have hpow : 2 ^ tableMaxLen table ≤ 2 ^ 16 := Nat.pow_le_pow_right Nat.two_pos (tableMaxLen_le table)
  change (BitVec.ofNat 17 (tableFill table)).toNat = 2 ^ (BitVec.ofNat 5 (tableMaxLen table)).toNat
  rw [toNat_ofNat_length le_rfl, h, BitVec.toNat_ofNat, Nat.mod_eq_of_lt (by omega)]

/-- With HROM as R147 asks, every build succeeds and is complete. -/
theorem hbuild_of_complete {t : Nat} (hc : HromComplete s.cfg.hrom) (ht : t ≤ 5) :
    ∃ slots, hbuild t s = .ok () (withTable (hromTable s t) t slots s) ∧
      (withTable (hromTable s t) t slots s).fill.toNat = 2 ^ (withTable (hromTable s t) t slots s).maxlen.toNat := by
  obtain ⟨hb, hfill⟩ := hromTable_of_complete hc ht
  obtain ⟨slots, hok, -⟩ := hbuild_of_buildable rfl hb
  exact ⟨slots, hok, withTable_fill_of_complete hfill t slots s⟩

/-- In IDLE, START that refuses nothing is its decode set up (44_host_commands.md R241). -/
theorem exec_start_of_idle (hrun : s.run = .idle) (hs : startRefused s = false) :
    exec .start s = .next (startDecode s).state := by
  have hf : s.run ≠ .fault := by simp [hrun]
  change execStart s = _
  rw [execStart, gate_allowed hf (allowIdle_iff.mpr hrun), hs]
  rfl

/-- The table START builds is one of the six (41_huffman.md R141). -/
theorem startTable_le (s : State) : 3 * (if s.bps = 14 then 1 else 0) + 2 * s.lossless.toNat ≤ 5 := by
  have hbit := Bool.toNat_le s.lossless
  split <;> omega

theorem start_of_complete (hc : HromComplete s.cfg.hrom) (hrun : s.run = .idle) (hs : startRefused s = false) :
    ∃ t, exec .start s = .next t ∧ t.run ≠ .fault ∧ t.tvalid = true ∧ t.fill.toNat = 2 ^ t.maxlen.toNat := by
  obtain ⟨slots, hok, hfill⟩ := hbuild_of_complete hc (startTable_le s)
  refine ⟨_, exec_start_of_idle hrun hs, ?_⟩
  rw [startDecode, hok]
  refine ⟨?_, rfl, hfill⟩
  change (if s.height = 0 ∨ s.raww = 0 then RunState.done else .active) ≠ .fault
  split <;> simp

/-- No code of a complete table is unassigned: every lookahead lies below FILL (41_huffman.md R145). -/
theorem hdec_raised_of_complete (hT : HoldsTable table s) (h : tableFill table = 2 ^ tableMaxLen table) {u : State}
    (hu : hdec s = .raised u) : u.cause = .dataExhausted := by
  obtain ⟨k, hk, hin⟩ := exists_inCode (h ▸ peek_lt (tableMaxLen table) s)
  rw [← hdecFlat_eq_hdec_of_inCode hT hk hin, hdecFlat_of_inCode hT hk hin] at hu
  split at hu
  · cases hu
    rfl
  · cases hu

/-- A fetch faults where HDEC does, or in the raw bits. -/
theorem fetchRecord_raised_of_complete (hT : HoldsTable table s) (h : tableFill table = 2 ^ tableMaxLen table)
    {u : State} (hu : fetchRecord s = .raised u) : u.cause = .dataExhausted := by
  rcases Res.bind_eq_raised.mp hu with hhdec | ⟨sym, s1, -, hraw⟩
  · exact hdec_raised_of_complete hT h hhdec
  · rcases rdbits_bpOnly (payloadRawBits sym.payload) s1 with ⟨_, _, _, e⟩ | ⟨_, _, e⟩ <;> rw [e] at hraw <;> cases hraw
    rfl

/-- Settles O60: each build and each decode over complete tables. -/
theorem completeHromNeverFails : Obligations.CompleteHromNeverFails := by
  intro s hc
  refine ⟨fun n hrun hn => ?_, start_of_complete hc, fun t hT u hu => ?_⟩
  · obtain ⟨slots, hok, hfill⟩ := hbuild_of_complete hc hn
    refine ⟨_, exec_hbld_of_idle hrun hn, ?_⟩
    rw [hok]
    exact ⟨hrun, rfl, hfill⟩
  · obtain ⟨-, hfill⟩ := hc t
    exact hu.elim (hdec_raised_of_complete hT hfill) (fetchRecord_raised_of_complete hT hfill)

end Sys2Proof.Machine
end

section
/-! PROOFS. The curve unit said by the entries of the curve store: what its reads answer, the entry interpolation gives an
index, the samples a header lays down, and the length the trim leaves. -/

namespace Sys2Proof.Machine

variable {s t : State} {curve : List (Nat × Word)} {sample : Nat → Word} {step stride m n i k : Nat}

/-! ### Reading the curve and META -/

theorem curveRead_of_get {v : Word} (hi : i ≤ 16384) (hv : storeGet s.curve i = some v) : curveRead i s = .ok v s := by
  simp [curveRead, hv, Nat.not_lt.mpr hi]

theorem metaRead8_of_lt (h : i < s.metalen.toNat) : metaRead8 i s = .ok (memRead s.metaMem i) s :=
  if_neg (Nat.not_le.mpr h)

theorem metaRead16_of_lt (h : i + 1 < s.metalen.toNat) : metaRead16 i s = .ok (meta16 s i) s := by
  obtain ⟨-, hok⟩ | ⟨hge, -⟩ := metaRead16_cases i s
  · exact hok
  · omega

/-- A read of META sees META, its length and the byte order, and no other part of the state (R161). -/
theorem metaRead16_of_same (hcfg : t.cfg = s.cfg) (hmem : t.metaMem = s.metaMem) (hlen : t.metalen = s.metalen)
    (h : i + 1 < s.metalen.toNat) : metaRead16 i t = .ok (meta16 s i) t := by
  rw [metaRead16_of_lt (hlen ▸ h), meta16, meta16, hcfg, hmem]

/-! ### Trimming -/

/-- The trim has nothing to do at length `m`: fewer than two entries, or the last two are written and differ (R173). -/
def TailDiffers (curve : List (Nat × Word)) (m : Nat) : Prop :=
  m < 2 ∨ m ≤ 16385 ∧ ∃ a b, a ≠ b ∧ storeGet curve (m - 2) = some a ∧ storeGet curve (m - 1) = some b

/-- The trim cuts the last entry off at length `m`: the last two are written and equal (R173). -/
def TailRepeats (curve : List (Nat × Word)) (m : Nat) : Prop :=
  2 ≤ m ∧ m ≤ 16385 ∧ ∃ a, storeGet curve (m - 2) = some a ∧ storeGet curve (m - 1) = some a

/-- One turn of CTRIM: it ends, it cuts the last entry off, or one of the two entries it compares cannot be read (R173). -/
theorem ctrimFrom_succ_cases (n : Nat) (s : State) :
    (TailDiffers s.curve s.maxReg.toNat ∧ ctrimFrom (n + 1) s = .ok () s) ∨
    (TailRepeats s.curve s.maxReg.toNat ∧ ctrimFrom (n + 1) s = ctrimFrom n { s with maxReg := s.maxReg - 1 }) ∨
    ((2 ≤ s.maxReg.toNat ∧ (16385 < s.maxReg.toNat ∨ storeGet s.curve (s.maxReg.toNat - 2) = none ∨
        storeGet s.curve (s.maxReg.toNat - 1) = none)) ∧
      ctrimFrom (n + 1) s = .raised (s.raise .curveUnwritten)) := by
  by_cases hm : s.maxReg.toNat < 2
  · exact .inl ⟨.inl hm, by rw [ctrimFrom, if_pos hm]⟩
  rw [ctrimFrom, if_neg hm]
  obtain ⟨a, -, ha, hread⟩ | ⟨hbad, hread⟩ := curveRead_cases (s.maxReg.toNat - 2) s
  case inr => exact .inr (.inr ⟨⟨by omega, hbad.imp (by omega) .inl⟩, by rw [hread]; rfl⟩)
  rw [hread, Res.bind_ok]
  obtain ⟨b, hle, hb, hread⟩ | ⟨hbad, hread⟩ := curveRead_cases (s.maxReg.toNat - 1) s
  case inr => exact .inr (.inr ⟨⟨by omega, hbad.imp (by omega) .inr⟩, by rw [hread]; rfl⟩)
  rw [hread, Res.bind_ok]
  by_cases hab : a = b
  · exact .inr (.inl ⟨⟨by omega, by omega, a, ha, hab ▸ hb⟩, if_pos hab⟩)
  · exact .inl ⟨.inr ⟨by omega, a, b, hab, ha, hb⟩, if_neg hab⟩

theorem TailDiffers.not_repeats (h : TailDiffers curve m) : ¬ TailRepeats curve m := by
  rintro ⟨hm, -, c, hc, hc'⟩
  obtain hlt | ⟨-, a, b, hab, ha, hb⟩ := h
  · omega
  · exact hab (by simp_all)

/-- Where the tail differs, CTRIM ends at once. -/
theorem ctrimFrom_of_tailDiffers (n : Nat) (h : TailDiffers s.curve s.maxReg.toNat) : ctrimFrom n s = .ok () s := by
  cases n with
  | zero => rfl
  | succ n =>
    obtain ⟨-, hok⟩ | ⟨hrep, -⟩ | ⟨⟨hm, hbad⟩, -⟩ := ctrimFrom_succ_cases n s
    · exact hok
    · exact absurd hrep h.not_repeats
    · obtain hlt | ⟨hle, a, b, -, ha, hb⟩ := h
      · omega
      · simp [ha, hb, Nat.not_lt.mpr hle] at hbad

theorem toNat_maxReg_sub_one (h : 2 ≤ s.maxReg.toNat) : (s.maxReg - 1).toNat = s.maxReg.toNat - 1 := by
  bv_omega

/-- Where CTRIM with turns enough ends without a fault, the tail differs. -/
theorem tailDiffers_of_ctrimFrom (hn : s.maxReg.toNat ≤ n) (h : ctrimFrom n s = .ok () t) :
    TailDiffers t.curve t.maxReg.toNat := by
  induction n generalizing s with
  | zero => cases h; exact .inl (by omega)
  | succ n ih =>
    obtain ⟨hdiff, hok⟩ | ⟨⟨hm, -⟩, hturn⟩ | ⟨-, hraised⟩ := ctrimFrom_succ_cases n s
    · rw [hok] at h; cases h; exact hdiff
    · exact ih (by have := toNat_maxReg_sub_one hm; simp only; omega) (hturn ▸ h)
    · rw [hraised] at h; cases h

theorem TailDiffers.trimmed (h : TailDiffers curve m) : Trimmed curve m m := by
  refine ⟨le_rfl, fun _ => rfl, fun _ => by omega, fun hm => ?_, fun j _ _ => by omega⟩
  obtain hlt | ⟨-, a, b, hab, ha, hb⟩ := h
  · omega
  · simpa [ha, hb] using hab

/-- Cutting off one entry that equals the one before it, and then trimming, is trimming. -/
theorem TailRepeats.trimmed (h : TailRepeats curve m) (ht : Trimmed curve (m - 1) n) : Trimmed curve m n := by
  obtain ⟨hm, -, a, ha, hb⟩ := h
  obtain ⟨hle, hshort, hpos, hdiff, htail⟩ := ht
  refine ⟨by omega, by omega, by omega, hdiff, fun j hj hjm => ?_⟩
  rcases Nat.lt_or_ge j (m - 1) with hlt | hge
  · exact htail j hj hlt
  · obtain rfl : j = m - 1 := by omega
    rw [hb, ← ha]
    rcases Nat.eq_or_lt_of_le hle with rfl | hcut
    · rfl
    · exact htail (m - 2) (by omega) (by omega)

theorem maxReg_ofNat_toNat (s : State) : { s with maxReg := BitVec.ofNat 16 s.maxReg.toNat } = s := by
  rw [BitVec.ofNat_toNat, BitVec.setWidth_eq]

/-- CTRIM over a curve written below MAX leaves the trimmed length in MAX (R173). -/
theorem ctrimFrom_trims (hn : s.maxReg.toNat ≤ n) (hmax : s.maxReg.toNat ≤ 16385)
    (hw : ∀ j < s.maxReg.toNat, ∃ v, storeGet s.curve j = some v) :
    ∃ len, ctrimFrom n s = .ok () { s with maxReg := BitVec.ofNat 16 len } ∧ Trimmed s.curve s.maxReg.toNat len := by
  induction n generalizing s with
  | zero =>
    have hdiff : TailDiffers s.curve s.maxReg.toNat := .inl (by omega)
    exact ⟨s.maxReg.toNat, by rw [maxReg_ofNat_toNat]; rfl, hdiff.trimmed⟩
  | succ n ih =>
    obtain ⟨hdiff, hok⟩ | ⟨hrep, hturn⟩ | ⟨⟨hm, hbad⟩, -⟩ := ctrimFrom_succ_cases n s
    · exact ⟨s.maxReg.toNat, by rw [maxReg_ofNat_toNat, hok], hdiff.trimmed⟩
    · have hcut := toNat_maxReg_sub_one hrep.1
      obtain ⟨len, hok, htrim⟩ := ih (s := { s with maxReg := s.maxReg - 1 }) (by simp only; omega) (by simp only; omega)
        (fun j hj => hw j (by simp only at hj; omega))
      exact ⟨len, hturn.trans hok, hrep.trimmed (hcut ▸ htrim)⟩
    · obtain ⟨a, ha⟩ := hw (s.maxReg.toNat - 2) (by omega)
      obtain ⟨b, hb⟩ := hw (s.maxReg.toNat - 1) (by omega)
      simp [ha, hb, Nat.not_lt.mpr hmax] at hbad

/-! ### Interpolation -/

/-- Entry `i` holds the interpolated value of its two samples (R170). -/
def Interpolates (curve : List (Nat × Word)) (sample : Nat → Word) (step i : Nat) : Prop :=
  ∃ v, storeGet curve i = some v ∧ v.toNat = interpolated (sample (i / step)) (sample (i / step + 1)) step i

/-- The `n` samples lie at the multiples of the step (R168, R170). -/
def Sampled (curve : List (Nat × Word)) (sample : Nat → Word) (step n : Nat) : Prop :=
  ∀ k < n, storeGet curve (k * step) = some (sample k)

/-- At a sample position the interpolated value is the sample. -/
theorem interpolated_of_mod_eq_zero {a b : Word} (hstep : 1 ≤ step) (hrem : i % step = 0) :
    interpolated a b step i = a.toNat := by
  rw [interpolated, hrem, Nat.mul_zero, Nat.add_zero, Nat.sub_zero, Nat.mul_div_cancel _ hstep]

/-- A weighted mean of two samples fits in 16 bits (R171). -/
theorem interpolated_lt {a b : Word} (hstep : 1 ≤ step) : interpolated a b step i < 2 ^ 16 := by
  have hrem : i % step < step := Nat.mod_lt i hstep
  rw [interpolated, Nat.div_lt_iff_lt_mul hstep]
  calc a.toNat * (step - i % step) + b.toNat * (i % step)
      ≤ (2 ^ 16 - 1) * (step - i % step) + (2 ^ 16 - 1) * (i % step) := by gcongr <;> omega
    _ = (2 ^ 16 - 1) * step := by rw [← Nat.mul_add, Nat.sub_add_cancel hrem.le]
    _ < 2 ^ 16 * step := by omega

/-- One index of INTERP up to the last sample writes the interpolated value there and nothing else (R170). -/
theorem interpAt_interpolates (hstep : 1 ≤ step) (hn : 1 ≤ n) (hin : (n - 1) * step ≤ 16384) (hi : i ≤ (n - 1) * step)
    (hs : Sampled s.curve sample step n) :
    ∃ v, interpAt step i s = .ok () (curveWrite i v s) ∧
      v.toNat = interpolated (sample (i / step)) (sample (i / step + 1)) step i := by
  have hbase : i - i % step = i / step * step := Nat.div_mul_self_eq_mod_sub_self.symm
  have hk : i / step ≤ n - 1 := Nat.div_le_of_le_mul (by rwa [Nat.mul_comm])
  have ha : curveRead (i / step * step) s = .ok (sample (i / step)) s :=
    curveRead_of_get ((Nat.mul_le_mul_right step hk).trans hin) (hs _ (by omega))
  rw [interpAt, hbase, ha, Res.bind_ok]
  by_cases hrem : i % step = 0
  · exact ⟨sample (i / step), by rw [if_pos hrem], (interpolated_of_mod_eq_zero hstep hrem).symm⟩
  · have hk' : i / step + 1 ≤ n - 1 := by
      have hne : i ≠ (n - 1) * step := fun h => hrem (by rw [h, Nat.mul_mod_left])
      exact (Nat.div_lt_iff_lt_mul hstep).mpr (Nat.lt_of_le_of_ne hi hne)
    have hb : curveRead ((i / step + 1) * step) s = .ok (sample (i / step + 1)) s :=
      curveRead_of_get ((Nat.mul_le_mul_right step hk').trans hin) (hs _ (by omega))
    rw [if_neg hrem, ← Nat.succ_mul, hb, Res.bind_ok]
    exact ⟨_, rfl, by rw [BitVec.toNat_ofNat]; exact Nat.mod_eq_of_lt (interpolated_lt hstep)⟩

/-- Writing its interpolated value to an entry keeps the samples: at a sample position it is the sample (R170). -/
theorem Sampled.of_curveWrite {v : Word} (hs : Sampled s.curve sample step n) (hstep : 1 ≤ step)
    (hv : v.toNat = interpolated (sample (i / step)) (sample (i / step + 1)) step i) :
    Sampled (curveWrite i v s).curve sample step n := by
  intro k hk
  rw [storeGet_curveWrite]
  split
  case isTrue hki =>
    subst hki
    rw [interpolated_of_mod_eq_zero hstep (Nat.mul_mod_left k step), Nat.mul_div_cancel k hstep] at hv
    exact congrArg some (BitVec.eq_of_toNat_eq hv)
  case isFalse => exact hs k hk

/-- The loop of INTERP up to the last sample: the indices it goes through are interpolated, the rest stays (R170). -/
theorem interpFrom_interpolates {c : Nat} (hstep : 1 ≤ step) (hn : 1 ≤ n) (hin : (n - 1) * step ≤ 16384)
    (hend : i + c ≤ (n - 1) * step + 1) (hs : Sampled s.curve sample step n) :
    ∃ curve, interpFrom step c i s = .ok () { s with curve := curve } ∧
      (∀ j, i ≤ j → j < i + c → Interpolates curve sample step j) ∧
      ∀ j, j < i ∨ i + c ≤ j → storeGet curve j = storeGet s.curve j := by
  induction c generalizing i s with
  | zero => exact ⟨s.curve, rfl, fun j _ _ => by omega, fun _ _ => rfl⟩
  | succ c ih =>
    obtain ⟨v, hat, hv⟩ := interpAt_interpolates (i := i) hstep hn hin (by omega) hs
    obtain ⟨curve, hok, hdone, hkeep⟩ := ih (i := i + 1) (by omega) (hs.of_curveWrite hstep hv)
    refine ⟨curve, by rw [interpFrom, hat, Res.bind_ok, hok]; rfl, fun j hij hj => ?_, fun j hj => ?_⟩
    · rcases Nat.eq_or_lt_of_le hij with rfl | hlt
      · exact ⟨v, by rw [hkeep _ (by omega), storeGet_curveWrite, if_pos rfl], hv⟩
      · exact hdone j hlt (by omega)
    · rw [hkeep j (by omega), storeGet_curveWrite, if_neg (by omega)]

/-- INTERP over samples that reach the end of the curve (R170). -/
theorem interp_interpolates (hm : m ≤ 16384) (hn : 2 ≤ n) (hstep : 1 ≤ m / (n - 1))
    (hreach : m ≤ (n - 1) * (m / (n - 1)) + 1) (hs : Sampled s.curve sample (m / (n - 1)) n) :
    ∃ curve, interp m n s = .ok () { s with curve := curve, maxReg := BitVec.ofNat 16 m } ∧
      CurveThrough curve sample (m / (n - 1)) m ∧ ∀ i, m ≤ i → storeGet curve i = storeGet s.curve i := by
  obtain ⟨curve, hok, hdone, hkeep⟩ := interpFrom_interpolates (i := 0) (c := m) hstep (by omega)
    ((Nat.mul_div_le m (n - 1)).trans hm) (by omega) hs
  exact ⟨curve, by rw [interp, hok]; rfl, fun i hi => hdone i (Nat.zero_le i) (by omega),
    fun i hi => hkeep i (.inr (by omega))⟩

/-! ### The samples of a header -/

/-- The samples of a header inside METALEN, each at its multiple of the stride, and nothing else (R168, R169). -/
theorem loadSamples_loads (hstride : 1 ≤ stride) (hlen : 12 + 2 * (k + n) ≤ s.metalen.toNat) :
    ∃ curve, loadSamples stride n k s = .ok () { s with curve := curve } ∧
      (∀ j, k ≤ j → j < k + n → storeGet curve (j * stride) = some (meta16 s (12 + 2 * j))) ∧
      ∀ i, (∀ j, k ≤ j → j < k + n → i ≠ j * stride) → storeGet curve i = storeGet s.curve i := by
  induction n generalizing k s with
  | zero => exact ⟨s.curve, rfl, fun j _ _ => by omega, fun _ _ => rfl⟩
  | succ n ih =>
    obtain ⟨curve, hok, hloaded, hkeep⟩ :=
      ih (k := k + 1) (s := curveWrite (k * stride) (meta16 s (12 + 2 * k)) s) (by simp only [curveWrite_metalen]; omega)
    refine ⟨curve, ?_, fun j hkj hj => ?_, fun i hi => ?_⟩
    · rw [loadSamples, metaRead16_of_lt (by omega), Res.bind_ok, hok]
      rfl
    · rcases Nat.eq_or_lt_of_le hkj with rfl | hlt
      · rw [hkeep, storeGet_curveWrite, if_pos rfl]
        intro j hj _ heq
        exact absurd (Nat.eq_of_mul_eq_mul_right hstride heq) (by omega)
      · exact hloaded j hlt (by omega)
    · rw [hkeep i fun j hj hjn => hi j (by omega) (by omega), storeGet_curveWrite, if_neg (hi k le_rfl (by omega))]

/-- The samples of a header laid down in the cleared curve (R168, R169). -/
theorem loadSamples_curveClear (hstride : 1 ≤ stride) (hlen : 12 + 2 * n ≤ s.metalen.toNat) :
    ∃ curve, loadSamples stride n 0 (curveClear s) = .ok () { s with curve := curve } ∧
      Sampled curve (fun k => meta16 s (12 + 2 * k)) stride n ∧
      ∀ i, (∀ k < n, i ≠ k * stride) → storeGet curve i = none := by
  obtain ⟨curve, hok, hloaded, hkeep⟩ :=
    loadSamples_loads (s := curveClear s) (n := n) (k := 0) hstride (by rwa [Nat.zero_add])
  exact ⟨curve, hok, fun k hk => hloaded k (Nat.zero_le k) (by rwa [Nat.zero_add]),
    fun i hi => hkeep i fun j _ hj => hi j (by rwa [Nat.zero_add] at hj)⟩

/-- Where the samples are all there is, only the last one may lie at or above the length, and then at it (R170). -/
theorem Sampled.get_of_le (hs : Sampled curve sample step n)
    (hrest : ∀ i, (∀ k < n, i ≠ k * step) → storeGet curve i = none) (hn : 1 ≤ n)
    (hin : (n - 1) * step ≤ m) (hi : m ≤ i) :
    storeGet curve i = if i = m ∧ (n - 1) * step = m then some (sample (n - 1)) else none := by
  split
  case isTrue h => rw [h.1, ← h.2, hs _ (by omega)]
  case isFalse h =>
    refine hrest i fun k hk heq => ?_
    have hle : k * step ≤ (n - 1) * step := Nat.mul_le_mul_right step (by omega)
    omega

/-! ### The loads -/

theorem bpsLegal_iff : bpsLegal s = true ↔ s.bps = 12 ∨ s.bps = 14 := by
  simp [bpsLegal]

/-- A legal depth keeps the curve inside the store (R168). -/
theorem two_pow_bps_le (hbps : s.bps = 12 ∨ s.bps = 14) : 2 ^ s.bps.toNat ≤ 16384 := by
  rcases hbps with h | h <;> rw [h] <;> decide

theorem badCount_eq_false (hn : 2 ≤ s.csize.toNat) (hstep : 1 ≤ 2 ^ s.bps.toNat / (s.csize.toNat - 1)) :
    badCount s = false := by
  rw [badCount, decide_eq_false (by omega), decide_eq_false (by omega), Bool.or_self]

/-- LOADL2 on samples that reach the end of the curve (R168). -/
theorem loadL2_loads (hbps : s.bps = 12 ∨ s.bps = 14) (hm : m = 2 ^ s.bps.toNat) (hcount : n = s.csize.toNat)
    (hdiv : step = m / (n - 1)) (hn : 2 ≤ n) (hstep : 1 ≤ step) (hreach : m ≤ (n - 1) * step + 1)
    (hlen : 12 + 2 * n ≤ s.metalen.toNat) (hsplit : s.cfg.splitOff + 2 ≤ s.metalen.toNat) :
    ∃ curve,
      loadL2 s = .ok () { s with
        curve := curve, maxReg := BitVec.ofNat 16 m, split := meta16 s s.cfg.splitOff, lossless := false } ∧
      CurveThrough curve (fun k => meta16 s (12 + 2 * k)) step m ∧
      ∀ i, m ≤ i → storeGet curve i =
        if i = m ∧ (n - 1) * step = m then some (meta16 s (12 + 2 * (n - 1))) else none := by
  subst hm hcount hdiv
  obtain ⟨samples, hload, hsampled, hrest⟩ := loadSamples_curveClear hstep hlen
  obtain ⟨curve, hinterp, hthrough, hkeep⟩ :=
    interp_interpolates (s := { s with curve := samples }) (two_pow_bps_le hbps) hn hstep hreach hsampled
  refine ⟨curve, ?_, hthrough, fun i hi => ?_⟩
  · rw [loadL2, badCount_eq_false hn hstep, if_neg Bool.false_ne_true]
    dsimp only
    rw [hload, Res.bind_ok, hinterp, Res.bind_ok, metaRead16_of_lt (by simp only; omega)]
    rfl
  · rw [hkeep i hi]
    exact hsampled.get_of_le hrest (by omega) (Nat.mul_div_le _ _) hi

/-- LOADDIR on a legal count (R169). -/
theorem loadDir_loads (hcount : n = s.csize.toNat) (hn : 1 ≤ n) (hle : n ≤ 0x4001)
    (hlen : 12 + 2 * n ≤ s.metalen.toNat) :
    ∃ curve,
      loadDir s = .ok () { s with curve := curve, maxReg := s.csize, split := 0, lossless := true } ∧
      ∀ k, storeGet curve k = if k < n then some (meta16 s (12 + 2 * k)) else none := by
  subst hcount
  obtain ⟨curve, hload, hsampled, hrest⟩ := loadSamples_curveClear (stride := 1) le_rfl hlen
  refine ⟨curve, ?_, fun k => ?_⟩
  · rw [loadDir, if_neg (by omega), hload, Res.bind_ok]
  · split
    case isTrue hk => simpa using hsampled k hk
    case isFalse hk => exact hrest k fun j hj => by omega

/-! ### The header -/

/-- A header whose count lies inside METALEN has all its fields read (30_encoding.md R96). -/
theorem headerFields_of_le (h : 12 ≤ s.metalen.toNat) :
    headerFields s = { s with
      ver := memRead s.metaMem 0 ++ memRead s.metaMem 1
      vseed0 := meta16 s 2, vseed1 := meta16 s 4, vseed2 := meta16 s 6, vseed3 := meta16 s 8, csize := meta16 s 10 } := by
  have hle : ∀ k ≤ 12, k ≤ s.metalen.toNat := fun k hk => hk.trans h
  simp [headerFields, hle]

/-- The seeds and the count, read after the version bytes (R165). -/
theorem hdrSeeds_of_le (h : 12 ≤ s.metalen.toNat) :
    hdrSeeds { s with ver := memRead s.metaMem 0 ++ memRead s.metaMem 1 } = .ok () (headerFields s) := by
  have hread : ∀ a ≤ 10, ∀ t : State, t.cfg = s.cfg → t.metaMem = s.metaMem → t.metalen = s.metalen →
      metaRead16 a t = .ok (meta16 s a) t :=
    fun a ha t hcfg hmem hlen => metaRead16_of_same hcfg hmem hlen (by omega)
  simp [hdrSeeds, hread, headerFields_of_le h]

/-- What HDR does once VER holds the version bytes, by the class they select (R165 to R167). -/
def hdrByClass : HdrClass → State → Res Unit
  | .fwupdate, s => .raised (s.raise .verFwupdate)
  | .unknown, s => .raised (s.raise .verUnknown)
  | .lossy2, s => hdrBody loadL2 s
  | .direct, s => hdrBody loadDir s

/-- HDR at a legal depth on a header with both version bytes goes by their class (R165). -/
theorem hdrParse_of_version (hbps : s.bps = 12 ∨ s.bps = 14) (hlen : 2 ≤ s.metalen.toNat) :
    hdrParse s = hdrByClass (hdrClass s.cfg (memRead s.metaMem 0) (memRead s.metaMem 1))
      { s with ver := memRead s.metaMem 0 ++ memRead s.metaMem 1 } := by
  rw [hdrParse, if_pos (bpsLegal_iff.mpr hbps), metaRead8_of_lt (by omega), Res.bind_ok, metaRead8_of_lt (by omega),
    Res.bind_ok]
  dsimp only
  cases hdrClass s.cfg (memRead s.metaMem 0) (memRead s.metaMem 1) <;> rfl

/-- The body of a header whose load leaves a curve written below MAX: the trimmed length in MAX (R165, R173). -/
theorem hdrBody_of_load {load : State → Res Unit} (hlen : 12 ≤ s.metalen.toNat)
    (hload : load (headerFields s) = .ok () t) (hmax : t.maxReg.toNat ≤ 16385)
    (hw : ∀ j < t.maxReg.toNat, ∃ v, storeGet t.curve j = some v) :
    ∃ len, hdrBody load { s with ver := memRead s.metaMem 0 ++ memRead s.metaMem 1 } =
        .ok () { t with maxReg := BitVec.ofNat 16 len } ∧ Trimmed t.curve t.maxReg.toNat len := by
  obtain ⟨len, htrim, htrimmed⟩ := ctrimFrom_trims le_rfl hmax hw
  exact ⟨len, by rw [hdrBody, hdrSeeds_of_le hlen, Res.bind_ok, hload, Res.bind_ok, ctrim, htrim], htrimmed⟩

/-! ### The commands -/

/-- In IDLE, CTRIM is the trim (44_host_commands.md R238). -/
theorem exec_ctrim_of_idle (hrun : s.run = .idle) : exec .ctrim s = .next (ctrim s).state :=
  gate_allowed (by simp [hrun]) (allowIdle_iff.mpr hrun)

/-- In IDLE, CINT is the interpolation with its checks (44_host_commands.md R237). -/
theorem exec_cint_of_idle (hrun : s.run = .idle) : exec .cint s = .next (curveInterpolate s).state :=
  gate_allowed (by simp [hrun]) (allowIdle_iff.mpr hrun)

/-- In IDLE, HDR is the header parser (44_host_commands.md R236). -/
theorem exec_hdr_of_idle (hrun : s.run = .idle) : exec .hdr s = .next (hdrParse s).state :=
  gate_allowed (by simp [hrun]) (allowIdle_iff.mpr hrun)

end Sys2Proof.Machine
end

section
/-! PROOFS. The statements of 42_curve.md: CTRIM, CINT, and HDR by the class of the header. -/

namespace Sys2Proof.Machine

/-! ### The trim -/

/-- Settles O37: CTRIM has turns enough to reach the trimmed length. -/
theorem ctrimTrims : Obligations.CtrimTrims := by
  intro s hrun hmax hw
  obtain ⟨len, hok, htrim⟩ := ctrimFrom_trims le_rfl hmax hw
  exact ⟨len, by rw [exec_ctrim_of_idle hrun, ctrim, hok, Res.state_ok], htrim⟩

/-- Settles O38: a trim that ends leaves a tail that differs, and from there it ends at once. -/
theorem trimIdempotent : Obligations.TrimIdempotent := fun _ _ h =>
  ctrimFrom_of_tailDiffers _ (tailDiffers_of_ctrimFrom le_rfl h)

/-! ### The interpolation -/

/-- Settles O39: the checks of CINT pass, and INTERP finds both samples of every index. -/
theorem cintInterpolates : Obligations.CintInterpolates := by
  intro s sample hrun hbps m n step hn hstep hreach hs
  obtain ⟨curve, hok, hthrough, hkeep⟩ := interp_interpolates (two_pow_bps_le hbps) hn hstep hreach hs
  refine ⟨curve, ?_, hthrough, hkeep⟩
  rw [exec_cint_of_idle hrun, curveInterpolate, if_pos (bpsLegal_iff.mpr hbps), badCount_eq_false hn hstep,
    if_neg Bool.false_ne_true, hok, Res.state_ok]

/-! ### The header -/

/-- Settles O40: LOADL2 on the header's fields, then the trim. -/
theorem hdrLoadsLossy : Obligations.HdrLoadsLossy := by
  intro s hrun hbps hcls m n step sample hn hstep hreach hlen hsplit
  have h12 : 12 ≤ s.metalen.toNat := by omega
  have hm : m ≤ 16384 := two_pow_bps_le hbps
  have hmax : (BitVec.ofNat 16 m).toNat = m := Nat.mod_eq_of_lt (by omega)
  obtain ⟨curve, hload, hthrough, habove⟩ := loadL2_loads (s := headerFields s) (m := m) (n := n) (step := step) hbps rfl
    (by rw [headerFields_of_le h12]) rfl hn hstep hreach hlen hsplit
  obtain ⟨len, hok, htrim⟩ := hdrBody_of_load h12 hload (by simp only [hmax]; omega) fun j hj =>
    (hthrough j (by simpa only [hmax] using hj)).imp fun _ h => h.1
  refine ⟨curve, len, ?_, hthrough, habove, hmax ▸ htrim⟩
  rw [exec_hdr_of_idle hrun, hdrParse_of_version hbps (by omega), hcls, hdrByClass, hok, Res.state_ok,
    headerFields_of_le h12]
  rfl

/-- Settles O41: LOADDIR on the header's fields, then the trim. -/
theorem hdrLoadsDirect : Obligations.HdrLoadsDirect := by
  intro s hrun hbps hcls n hn hle hlen
  have h12 : 12 ≤ s.metalen.toNat := by omega
  have hcsize : (headerFields s).csize = meta16 s 10 := by rw [headerFields_of_le h12]
  obtain ⟨curve, hload, hcurve⟩ := loadDir_loads (s := headerFields s) (n := n) (by rw [hcsize]) hn hle hlen
  obtain ⟨len, hok, htrim⟩ := hdrBody_of_load h12 hload (by rw [hcsize]; exact hle) fun j hj =>
    ⟨_, (hcurve j).trans (if_pos (by rwa [hcsize] at hj))⟩
  refine ⟨curve, len, ?_, hcurve, by rwa [hcsize] at htrim⟩
  rw [exec_hdr_of_idle hrun, hdrParse_of_version hbps (by omega), hcls, hdrByClass, hok, Res.state_ok,
    headerFields_of_le h12]

/-- Settles O42: the class is judged before any field after the version bytes. -/
theorem hdrRefusesUnknownClasses : Obligations.HdrRefusesUnknownClasses := by
  intro s hrun hbps hlen b0 b1
  rw [exec_hdr_of_idle hrun, hdrParse_of_version hbps hlen]
  constructor
  · intro hcls
    rw [hcls, hdrByClass, Res.state_raised]
  · intro hcls
    rw [hcls, hdrByClass, Res.state_raised]

end Sys2Proof.Machine
end

section
/-! PROOFS. What a pixel step does to BP and to the bounds while RUN is ACTIVE: BP moves on within DATA, and MODE, MIN and MAX
stay but for one split transition (43_predictive.md R203, R208, R209). -/

namespace Sys2Proof.Machine

/-! ### The frame of a record's execution -/

/-- `t` differs from `s` in what the execution of a fetched record may write: lanes, position, raster, and the fault record
with RUN (43_predictive.md R196 to R204). -/
def PixelOnly (s t : State) : Prop :=
  t = { s with
    vpred00 := t.vpred00, vpred01 := t.vpred01, vpred10 := t.vpred10, vpred11 := t.vpred11
    hpred0 := t.hpred0, hpred1 := t.hpred1, row := t.row, col := t.col, raster := t.raster
    run := t.run, kind := t.kind, cause := t.cause, frow := t.frow, fcol := t.fcol }

theorem PixelOnly.trans {s t u : State} (h : PixelOnly s t) (h' : PixelOnly t u) : PixelOnly s u := by
  unfold PixelOnly at h h' ⊢
  rw [h] at h'
  exact h'

theorem predUpd_pixelOnly (diff : Int) (s : State) : PixelOnly s (predUpd diff s).2 := by
  obtain ⟨_, _, _, _, _, _, h⟩ := predUpd_frame diff s
  rw [h]; rfl

theorem emit_pixelOnly (v : Word) (s : State) : PixelOnly s (emit v s) := by
  rcases emit_cases v s with ⟨-, h⟩ | ⟨-, h⟩ <;> rw [h] <;> rfl

theorem advance_pixelOnly (s : State) : PixelOnly s (advance s) := by
  rcases advance_cases s with ⟨-, h⟩ | ⟨-, -, h⟩ | ⟨-, -, h⟩ <;> rw [h] <;> rfl

theorem pixelRecord_pixelOnly (len shl raw : Nat) (s : State) : PixelOnly s (pixelRecord len shl raw s).state := by
  have hu := predUpd_pixelOnly (residual len shl raw) s
  rcases pixelRecord_cases len shl raw s with ⟨-, h⟩ | ⟨-, -, h⟩ | ⟨v, -, -, h⟩ <;> rw [h]
  · exact hu.trans rfl
  · exact hu.trans rfl
  · exact (hu.trans (emit_pixelOnly v _)).trans (advance_pixelOnly _)

/-! ### The bit pointer -/

/-- From `s` to `t` BP moves on and, if it was within DATA, stays there (43_predictive.md R208). -/
def ReadsOn (s t : State) : Prop :=
  t.srclen = s.srclen ∧
    (bitPos s ≤ 8 * s.srclen.toNat → bitPos s ≤ bitPos t ∧ bitPos t ≤ 8 * s.srclen.toNat)

theorem ReadsOn.refl (s : State) : ReadsOn s s := ⟨rfl, fun h => ⟨le_rfl, h⟩⟩

theorem ReadsOn.trans {s t u : State} (h : ReadsOn s t) (h' : ReadsOn t u) : ReadsOn s u := by
  obtain ⟨hlen, hmove⟩ := h
  obtain ⟨hlen', hmove'⟩ := h'
  rw [hlen] at hlen' hmove'
  refine ⟨hlen', fun hs => ?_⟩
  obtain ⟨hle, ht⟩ := hmove hs
  obtain ⟨hle', hu⟩ := hmove' ht
  exact ⟨hle.trans hle', hu⟩

theorem ReadsOn.bind {α β : Type} {s : State} {r : Res α} {f : α → State → Res β} (h : ReadsOn s r.state)
    (hf : ∀ a t, ReadsOn t (f a t).state) : ReadsOn s (r.bind f).state :=
  Res.state_bind_of_keeps h fun a t ht => ht.trans (hf a t)

/-- BP where it was. -/
theorem ReadsOn.of_bp_eq {s t : State} (hbyte : t.bpByte = s.bpByte) (hbit : t.bpBit = s.bpBit)
    (hlen : t.srclen = s.srclen) : ReadsOn s t := by
  have hpos : bitPos t = bitPos s := by rw [bitPos, bitPos, hbyte, hbit]
  exact ⟨hlen, fun h => ⟨hpos.ge, hpos.trans_le h⟩⟩

theorem ReadsOn.raise {s t : State} (h : ReadsOn s t) (c : FaultCause) : ReadsOn s (t.raise c) :=
  h.trans (.of_bp_eq rfl rfl rfl)

theorem rdbit_readsOn (s : State) : ReadsOn s (rdbit s).state := by
  rcases Nat.eq_zero_or_pos (bitsLeft s) with h | h
  · rw [rdbit_of_none_left h]
    exact (ReadsOn.refl s).raise _
  · rw [rdbit_of_left h]
    refine ⟨rfl, fun hle => ?_⟩
    have hin := bitPos_setBitPos_add_le hle h
    rw [Res.state_ok, bitPos_setBitPos_add h] at *
    exact ⟨Nat.le_add_right _ _, hin⟩

theorem rdbitsFrom_readsOn (n v : Nat) (s : State) : ReadsOn s (rdbitsFrom n v s).state := by
  induction n generalizing v s with
  | zero => exact .refl s
  | succ n ih => exact (rdbit_readsOn s).bind fun b t => ih _ t

theorem hdecFrom_readsOn (n l code : Nat) (s : State) : ReadsOn s (hdecFrom n l code s).state := by
  induction n generalizing l code s with
  | zero => exact (ReadsOn.refl s).raise _
  | succ n ih =>
    refine (rdbit_readsOn s).bind fun b t => ?_
    dsimp only
    split
    · exact (ReadsOn.refl t).raise _
    · split
      · split
        · exact .refl t
        · exact ih _ _ t
      · exact ih _ _ t

theorem rdbits_readsOn (n : Nat) (s : State) : ReadsOn s (rdbits n s).state := rdbitsFrom_readsOn n 0 s

theorem hdec_readsOn (s : State) : ReadsOn s (hdec s).state := hdecFrom_readsOn _ _ _ s

theorem fetchRecord_readsOn (s : State) : ReadsOn s (fetchRecord s).state :=
  (hdec_readsOn s).bind fun _ t => (rdbits_readsOn _ t).bind fun _ u => .refl u

/-- Off a byte boundary within DATA there is a next byte to go to (40_bitreader.md R124). -/
theorem brreset_readsOn (s : State) : ReadsOn s (brreset s) := by
  refine ⟨brreset_srclen s, fun hle => ?_⟩
  rw [brreset]
  split
  · rename_i hbit
    simp only [bitPos, State.setBp_bpByte, State.setBp_bpBit] at *
    bv_omega
  · exact ⟨le_rfl, hle⟩

theorem hbuild_readsOn (n : Nat) (s : State) : ReadsOn s (hbuild n s).state := by
  rcases hbuild_cases n s with ⟨_, _, h⟩ | ⟨_, _, _, -, h⟩ <;> rw [h] <;> exact .of_bp_eq rfl rfl rfl

theorem PixelOnly.readsOn {s t : State} (h : PixelOnly s t) : ReadsOn s t := by
  rw [h]; exact .of_bp_eq rfl rfl rfl

theorem pixBody_readsOn (s : State) : ReadsOn s (pixBody s).state :=
  (fetchRecord_readsOn s).bind fun _ t => (pixelRecord_pixelOnly _ _ _ t).readsOn

theorem splitTrans_readsOn (s : State) : ReadsOn s (splitTrans s).state :=
  ReadsOn.bind ((brreset_readsOn s).trans (hbuild_readsOn _ _)) fun _ _ => .of_bp_eq rfl rfl rfl

theorem pixStep_readsOn {s t : State} (h : pixStep s = .ok t) : ReadsOn s t := by
  have hs := splitTrans_readsOn s
  rcases pixStep_cases h with ⟨-, rfl⟩ | ⟨-, -, e | ⟨s1, e, rfl⟩⟩
  · exact pixBody_readsOn s
  · rwa [e] at hs
  · rw [e] at hs
    exact hs.trans (pixBody_readsOn s1)

/-! ### The bounds and the mode -/

/-- From `s` to `t` MODE, MIN and MAX stay, or make the split transition's change (43_predictive.md R203). -/
def Widens (s t : State) : Prop :=
  (t.mode = s.mode ∧ t.minReg = s.minReg ∧ t.maxReg = s.maxReg) ∨
    (s.mode = .normal ∧ t.mode = .split ∧ t.minReg = 16 ∧ t.maxReg = s.maxReg + 32)

theorem Widens.refl (s : State) : Widens s s := .inl ⟨rfl, rfl, rfl⟩

/-- Once in SPLIT there is no second change. -/
theorem Widens.trans {s t u : State} (h : Widens s t) (h' : Widens t u) : Widens s u := by
  rcases h with ⟨hmode, hmin, hmax⟩ | ⟨hmode, hsplit, hmin, hmax⟩
  · rwa [Widens, hmode, hmin, hmax] at h'
  · rcases h' with ⟨hmode', hmin', hmax'⟩ | ⟨hnormal, -⟩
    · exact .inr ⟨hmode, hmode'.trans hsplit, hmin'.trans hmin, hmax'.trans hmax⟩
    · rw [hsplit] at hnormal
      cases hnormal

theorem PixelOnly.widens {s t : State} (h : PixelOnly s t) : Widens s t := by
  rw [h]; exact .inl ⟨rfl, rfl, rfl⟩

theorem fetchRecord_widens (s : State) : Widens s (fetchRecord s).state := by
  rcases fetchRecord_frame s with ⟨_, _, _, h⟩ | ⟨_, _, _, -, h⟩ <;> rw [h] <;> exact .inl ⟨rfl, rfl, rfl⟩

theorem pixBody_widens (s : State) : Widens s (pixBody s).state :=
  Res.state_bind_of_keeps (fetchRecord_widens s) fun _ _ ht => ht.trans (pixelRecord_pixelOnly _ _ _ _).widens

theorem mode_of_splitDue {s : State} (h : splitDue s = true) : s.mode = .normal := by
  simp only [splitDue, Bool.and_eq_true, decide_eq_true_eq] at h
  obtain ⟨-, hmode⟩ := h
  exact hmode

/-- The transition's build touches none of the three, and its end widens the bounds once (R203). -/
theorem splitTrans_widens {s : State} (h : splitDue s = true) : Widens s (splitTrans s).state := by
  rcases splitTrans_cases s with ⟨s2, hb, e⟩ | ⟨s2, hb, e⟩ <;> rw [e] <;>
    rcases hbuild_cases (s.tsel.toNat + 1) (brreset s) with ⟨_, _, e'⟩ | ⟨_, _, _, -, e'⟩ <;> rw [e'] at hb <;> cases hb
  · exact .inr ⟨mode_of_splitDue h, rfl, rfl, by simp⟩
  · exact .inl ⟨brreset_mode s, brreset_minReg s, brreset_maxReg s⟩

theorem pixStep_widens {s t : State} (h : pixStep s = .ok t) : Widens s t := by
  rcases pixStep_cases h with ⟨-, rfl⟩ | ⟨hdue, -, e | ⟨s1, e, rfl⟩⟩
  · exact pixBody_widens s
  · simpa [e] using splitTrans_widens hdue
  · have hs1 : Widens s s1 := by simpa [e] using splitTrans_widens hdue
    exact hs1.trans (pixBody_widens s1)

/-! ### A step while ACTIVE -/

/-- A relation of two states that a step while ACTIVE keeps to: it stands still where only the fault record and the model's own
fields move, it holds of the reads of BP and of a pixel step, and it goes through a run. -/
structure DecodeRelation (R : State → State → Prop) : Prop where
  refl : ∀ s, R s s
  trans : ∀ {s t u}, R s t → R t u → R s u
  raise : ∀ s c, R s (s.raise c)
  host : ∀ (s : State) hostIn hostOut draws, R s { s with hostIn := hostIn, hostOut := hostOut, draws := draws }
  result : ∀ (s : State) result, R s { s with result := result }
  brst : ∀ s, R s (brreset s)
  rdb : ∀ n s, R s (rdbits n s).state
  hdec : ∀ s, R s (hdec s).state
  pixStep : ∀ {s t}, pixStep s = .ok t → R s t

/-- In ACTIVE a command that is no reset decodes, moves BP, or is refused (44_host_commands.md R240). -/
theorem DecodeRelation.of_commandEffect {R : State → State → Prop} (hR : DecodeRelation R) {w : Word} {s t : State}
    (h : CommandEffect w s t) (hrun : s.run = .active) (hw : w ≠ 0x0100) : R s t := by
  cases h with
  | nop => exact hR.refl s
  | reset hr => exact absurd hr hw
  | refused c => exact hR.raise s c
  | hdr hidle | cint hidle | ctrim hidle | hbld hidle | startRefused hidle | start hidle => simp [hrun] at hidle
  | step _ ht => exact hR.pixStep ht
  | run _ ht => exact runLoop_keeps (P := R s) (fun _ _ _ hp hs => hR.trans hs (hR.pixStep hp)) ht (hR.refl s)
  | brst => exact hR.brst s
  | rdb _ n => exact Res.state_bind_of_keeps (hR.rdb _ s) fun _ t ht => hR.trans ht (hR.result t _)
  | noTable => exact hR.raise s _
  | hdec => exact Res.state_bind_of_keeps (hR.hdec s) fun _ t ht => hR.trans ht (hR.result t _)

/-- In ACTIVE a register write is refused (44_host_commands.md R230). -/
theorem regWrite_of_active (addr : Nat) (v : Word) {s : State} (hrun : s.run = .active) :
    ∃ c, regWrite addr v s = s.raise c := by
  rcases regWrite_cases addr v s with ⟨-, e⟩ | ⟨-, -, e⟩ | ⟨-, -, -, e⟩ | ⟨-, hidle, -⟩ | ⟨-, -, hidle, -⟩
  · exact ⟨_, e⟩
  · exact ⟨_, e⟩
  · exact ⟨_, e⟩
  · simp [hrun] at hidle
  · simp [hrun] at hidle

theorem DecodeRelation.of_step {R : State → State → Prop} (hR : DecodeRelation R) {s t : State}
    (hrun : s.run = .active) (hn : nextIsReset s = false) (h : step s = .next t) : R s t := by
  have hin : ∀ rest, R s { s with hostIn := rest } := fun rest => hR.host s rest s.hostOut s.draws
  cases step_effect h with
  | waits => exact hR.refl s
  | hardReset he => simp [nextIsReset, he] at hn
  | @read addr rest =>
    obtain ⟨n, e⟩ := serveRead_frame addr.toNat { s with hostIn := rest }
    rw [e]
    exact hR.host s _ _ _
  | faultReset he => simp [nextIsReset, he] at hn
  | ignored _ hf => simp [hrun] at hf
  | @command v rest _ he _ heff =>
    exact hR.trans (hin rest) (hR.of_commandEffect heff hrun (by simpa [nextIsReset, he] using hn))
  | @regWrite addr v rest =>
    obtain ⟨c, e⟩ := regWrite_of_active addr.toNat v (s := { s with hostIn := rest }) hrun
    rw [e]
    exact hR.trans (hin rest) (hR.raise _ c)

theorem widens_decodeRelation : DecodeRelation Widens where
  refl := .refl
  trans := .trans
  raise _ _ := .inl ⟨rfl, rfl, rfl⟩
  host _ _ _ _ := .inl ⟨rfl, rfl, rfl⟩
  result _ _ := .inl ⟨rfl, rfl, rfl⟩
  brst s := .inl ⟨brreset_mode s, brreset_minReg s, brreset_maxReg s⟩
  rdb n s := by
    rcases rdbits_bpOnly n s with ⟨_, _, _, h⟩ | ⟨_, _, h⟩ <;> rw [h] <;> exact .inl ⟨rfl, rfl, rfl⟩
  hdec s := by
    rcases hdec_frame s with ⟨_, _, _, h⟩ | ⟨_, _, _, -, h⟩ <;> rw [h] <;> exact .inl ⟨rfl, rfl, rfl⟩
  pixStep := pixStep_widens

theorem readsOn_decodeRelation : DecodeRelation ReadsOn where
  refl := .refl
  trans := .trans
  raise s c := (ReadsOn.refl s).raise c
  host _ _ _ _ := .of_bp_eq rfl rfl rfl
  result _ _ := .of_bp_eq rfl rfl rfl
  brst := brreset_readsOn
  rdb := rdbits_readsOn
  hdec := hdec_readsOn
  pixStep := pixStep_readsOn

/-- Settles O57: only a pixel step's split transition moves the bounds, and from NORMAL alone. -/
theorem splitAtMostOnce : Obligations.SplitAtMostOnce := fun _ _ hrun hn h =>
  widens_decodeRelation.of_step hrun hn h

end Sys2Proof.Machine
end

section
/-! PROOFS. The invariant of the machine (43_predictive.md R209 a) with its parts by name, and how each unit keeps it: the fault
record (10_state.md R28), the stores and the table registers (R27, R33, R37, R38), and, while ACTIVE, the decode. -/

namespace Sys2Proof.Machine

/-! ### The parts of the invariant -/

/-- The stores are in canonical form and in range, and a valid table is as a build leaves it. -/
structure StoresOk (s : State) : Prop where
  curve : curveOk s = true
  slots : slotsOk s = true
  data : Memory.wf s.data = true
  metaMem : Memory.wf s.metaMem = true
  table : tableOk s = true

/-- The fields the stores' part speaks of. -/
def State.stores (s : State) :=
  (s.curve, s.data, s.metaMem, s.hslot, s.tvalid, s.tsel, s.maxlen, s.fill)

theorem StoresOk.of_eq {s t : State} (h : StoresOk s) (heq : t.stores = s.stores) : StoresOk t := by
  simp only [State.stores, Prod.mk.injEq] at heq
  obtain ⟨hcurve, hdata, hmeta, hslot, htvalid, htsel, hmaxlen, hfill⟩ := heq
  refine ⟨?_, ?_, hdata ▸ h.data, hmeta ▸ h.metaMem, ?_⟩
  · rw [curveOk, hcurve]; exact h.curve
  · rw [slotsOk, hslot]; exact h.slots
  · rw [tableOk, hslot, htvalid, htsel, hmaxlen, hfill]; exact h.table

/-- What holds while RUN = ACTIVE (43_predictive.md R209 a). -/
structure Decoding (s : State) : Prop where
  tvalid : s.tvalid = true
  inside : s.scan.Inside
  bp : bitPos s ≤ 8 * s.srclen.toNat
  minReg : s.minReg.toNat = 16 * s.mode.code
  maxReg : s.maxReg.toNat ≤ 0x4001 + 32 * s.mode.code
  tsel : s.tsel.toNat = tableIndex s
  noSplit : ¬(s.lossless = true ∧ s.split ≠ 0)
  splitRow : ¬(s.mode = .split ∧ s.split = 0)

/-- `inv` by its three parts. -/
structure Invariant (s : State) : Prop where
  fault : faultRecordOk s = true
  stores : StoresOk s
  active : s.run = .active → Decoding s

theorem activeOk_iff (s : State) : activeOk s = true ↔ (s.run = .active → Decoding s) := by
  simp only [activeOk, Bool.or_eq_true, Bool.not_eq_true', decide_eq_false_iff_not, Bool.and_eq_true, decide_eq_true_eq,
    Bool.and_eq_false_imp, and_assoc]
  rw [← imp_iff_not_or]
  refine forall_congr' fun _ => ⟨?_, fun h => ?_⟩
  · rintro ⟨htv, hrow, hcol, hbp, hmin, hmax, htsel, hno, hsp⟩
    exact ⟨htv, ⟨hrow, hcol⟩, hbp, hmin, hmax, htsel, fun h => hno h.1 h.2, fun h => hsp h.1 h.2⟩
  · obtain ⟨hrow, hcol⟩ := h.inside
    exact ⟨h.tvalid, hrow, hcol, h.bp, h.minReg, h.maxReg, h.tsel, fun h1 h2 => h.noSplit ⟨h1, h2⟩,
      fun h1 h2 => h.splitRow ⟨h1, h2⟩⟩

theorem inv_iff (s : State) : inv s = true ↔ Invariant s := by
  simp only [inv, Bool.and_eq_true, activeOk_iff, and_assoc]
  constructor
  · rintro ⟨hf, hc, hs, hd, hm, ht, ha⟩
    exact ⟨hf, ⟨hc, hs, hd, hm, ht⟩, ha⟩
  · rintro ⟨hf, ⟨hc, hs, hd, hm, ht⟩, ha⟩
    exact ⟨hf, hc, hs, hd, hm, ht, ha⟩

theorem faultRecordOk_iff (s : State) :
    faultRecordOk s = true ↔ (s.run = .fault ↔ s.kind ≠ .none) ∧ s.kind = s.cause.kind := by
  simp only [faultRecordOk, Bool.and_eq_true, decide_eq_true_eq]

/-- Outside FAULT the kind is NONE, so the record stays right while RUN does not become FAULT (10_state.md R28). -/
theorem faultRecordOk_of_no_fault {s t : State} (h : faultRecordOk s = true) (hs : s.run ≠ .fault)
    (ht : t.run ≠ .fault) (hkind : t.kind = s.kind) (hcause : t.cause = s.cause) : faultRecordOk t = true := by
  rw [faultRecordOk_iff] at h ⊢
  obtain ⟨hrun, hk⟩ := h
  rw [hkind, hcause]
  exact ⟨iff_of_false ht fun hne => hs (hrun.mpr hne), hk⟩

/-- A fault of the spec leaves the stores, and its record is right (60_exceptions.md R262, R270). -/
theorem StoresOk.invariant_raise {s : State} (h : StoresOk s) {c : FaultCause} (hc : c.kind ≠ .none) :
    Invariant (s.raise c) := by
  refine ⟨?_, h.of_eq rfl, fun hrun => by simp at hrun⟩
  simp [faultRecordOk_iff, hc]

/-- Away from ACTIVE the fault record and the stores are all there is. -/
structure Resting (s : State) : Prop where
  fault : faultRecordOk s = true
  stores : StoresOk s
  run : s.run ≠ .active

theorem Resting.invariant {s : State} (h : Resting s) : Invariant s :=
  ⟨h.fault, h.stores, fun hrun => absurd hrun h.run⟩

theorem StoresOk.resting_raise {s : State} (h : StoresOk s) {c : FaultCause} (hc : c.kind ≠ .none) :
    Resting (s.raise c) :=
  ⟨(h.invariant_raise hc).fault, (h.invariant_raise hc).stores, by simp⟩

theorem Invariant.resting {s : State} (h : Invariant s) (hrun : s.run ≠ .active) : Resting s :=
  ⟨h.fault, h.stores, hrun⟩

/-! ### The curve unit -/

theorem curveOk_iff (s : State) :
    curveOk s = true ↔ storeRising s.curve = true ∧ ∀ e ∈ s.curve, e.1 ≤ 16384 := by
  simp [curveOk]

/-- A write at an index up to 16384 keeps the curve store (10_state.md R38). -/
theorem curveOk_curveWrite {s : State} (h : curveOk s = true) {i : Nat} (hi : i ≤ 16384) (v : Word) :
    curveOk (curveWrite i v s) = true := by
  rw [curveOk_iff] at h ⊢
  obtain ⟨hrising, hkeys⟩ := h
  refine ⟨storeRising_storeSet hrising i v, fun e he => ?_⟩
  rcases mem_storeSet he with rfl | he
  · exact hi
  · exact hkeys e he

theorem Resting.curveWrite {s : State} (h : Resting s) {i : Nat} (hi : i ≤ 16384) (v : Word) :
    Resting (curveWrite i v s) :=
  ⟨h.fault, ⟨curveOk_curveWrite h.stores.curve hi v, h.stores.slots, h.stores.data, h.stores.metaMem, h.stores.table⟩,
    h.run⟩

theorem Resting.curveClear {s : State} (h : Resting s) : Resting (curveClear s) :=
  ⟨h.fault, ⟨rfl, h.stores.slots, h.stores.data, h.stores.metaMem, h.stores.table⟩, h.run⟩

/-- The registers a header or a trim writes are in no part of it. -/
theorem Resting.headerRegisters {s : State} (h : Resting s) (ver vseed0 vseed1 vseed2 vseed3 csize split maxReg : Word)
    (lossless : Bool) :
    Resting { s with
      ver := ver, vseed0 := vseed0, vseed1 := vseed1, vseed2 := vseed2, vseed3 := vseed3, csize := csize
      split := split, maxReg := maxReg, lossless := lossless } :=
  ⟨h.fault, h.stores.of_eq rfl, h.run⟩

theorem metaRead16_resting {s : State} (h : Resting s) (a : Nat) : Resting (metaRead16 a s).state := by
  rcases metaRead16_cases a s with ⟨-, e⟩ | ⟨-, e⟩ <;> rw [e]
  · exact h
  · exact h.stores.resting_raise (by decide)

theorem curveRead_resting {s : State} (h : Resting s) (i : Nat) : Resting (curveRead i s).state := by
  rcases curveRead_cases i s with ⟨_, -, -, e⟩ | ⟨-, e⟩ <;> rw [e]
  · exact h
  · exact h.stores.resting_raise (by decide)

theorem interpAt_resting {s : State} (h : Resting s) (step : Nat) {i : Nat} (hi : i ≤ 16384) :
    Resting (interpAt step i s).state := by
  refine Res.state_bind_of_keeps (curveRead_resting h _) fun a t ht => ?_
  split
  · exact ht.curveWrite hi a
  · exact Res.state_bind_of_keeps (curveRead_resting ht _) fun b u hu => hu.curveWrite hi _

theorem interpFrom_resting (step n : Nat) {i : Nat} {s : State} (h : Resting s) (hn : i + n ≤ 16385) :
    Resting (interpFrom step n i s).state := by
  induction n generalizing i s with
  | zero => exact h
  | succ n ih =>
    exact Res.state_bind_of_keeps (interpAt_resting h step (by omega)) fun _ t ht => ih ht (by omega)

theorem interp_resting {s : State} (h : Resting s) {m : Nat} (hm : m ≤ 16384) (n : Nat) :
    Resting (interp m n s).state :=
  Res.state_bind_of_keeps (interpFrom_resting _ m h (by omega)) fun _ _ ht => ht.headerRegisters ..

theorem loadSamples_resting (stride n : Nat) {k : Nat} {s : State} (h : Resting s)
    (hn : ∀ j < k + n, j * stride ≤ 16384) : Resting (loadSamples stride n k s).state := by
  induction n generalizing k s with
  | zero => exact h
  | succ n ih =>
    exact Res.state_bind_of_keeps (metaRead16_resting h _) fun v t ht =>
      ih (ht.curveWrite (hn k (by omega)) v) fun j hj => hn j (by omega)

theorem ctrim_resting {s : State} (h : Resting s) : Resting (ctrim s).state := by
  obtain ⟨m, -, e | e⟩ := ctrimFrom_frame s.maxReg.toNat s <;> rw [ctrim, e]
  · exact h.headerRegisters ..
  · exact (h.headerRegisters _ _ _ _ _ _ _ m _).stores.resting_raise (by decide)

theorem hdrSeeds_resting {s : State} (h : Resting s) : Resting (hdrSeeds s).state :=
  Res.state_bind_of_keeps (metaRead16_resting h 2) fun _ _ h =>
    Res.state_bind_of_keeps (metaRead16_resting (h.headerRegisters ..) 4) fun _ _ h =>
      Res.state_bind_of_keeps (metaRead16_resting (h.headerRegisters ..) 6) fun _ _ h =>
        Res.state_bind_of_keeps (metaRead16_resting (h.headerRegisters ..) 8) fun _ _ h =>
          Res.state_bind_of_keeps (metaRead16_resting (h.headerRegisters ..) 10) fun _ _ h => h.headerRegisters ..

/-- The samples of a valid count end within the curve of `2^BPS` entries (42_curve.md R168). -/
theorem loadL2_resting {s : State} (h : Resting s) (hbps : s.bps = 12 ∨ s.bps = 14) : Resting (loadL2 s).state := by
  have hm := two_pow_bps_le hbps
  rw [loadL2]
  split
  · exact h.stores.resting_raise (by decide)
  · refine Res.state_bind_of_keeps (loadSamples_resting _ _ h.curveClear fun j hj => ?_) fun _ _ h1 =>
      Res.state_bind_of_keeps (interp_resting h1 hm _) fun _ _ h2 =>
        Res.state_bind_of_keeps (metaRead16_resting h2 _) fun _ _ h3 => h3.headerRegisters ..
    calc j * (2 ^ s.bps.toNat / (s.csize.toNat - 1))
        ≤ (s.csize.toNat - 1) * (2 ^ s.bps.toNat / (s.csize.toNat - 1)) := Nat.mul_le_mul_right _ (by omega)
      _ ≤ 2 ^ s.bps.toNat := Nat.mul_div_le _ _
      _ ≤ 16384 := hm

theorem loadDir_resting {s : State} (h : Resting s) : Resting (loadDir s).state := by
  rw [loadDir]
  split
  · exact h.stores.resting_raise (by decide)
  · exact Res.state_bind_of_keeps (loadSamples_resting _ _ h.curveClear fun j hj => by omega) fun _ _ h1 =>
      h1.headerRegisters ..

theorem hdrBody_resting {load : State → Res Unit} {s : State} (h : Resting s)
    (hload : ∀ s1, s1.bps = s.bps → Resting s1 → Resting (load s1).state) : Resting (hdrBody load s).state := by
  have hseeds := hdrSeeds_resting h
  refine Res.state_bind hseeds fun _ s1 e => Res.state_bind_of_keeps ?_ fun _ _ h2 => ctrim_resting h2
  have hframe : HeaderOnly s s1 := by simpa [e] using hdrSeeds_headerOnly s
  rw [e] at hseeds
  exact hload s1 (by rw [hframe]) hseeds

theorem hdrParse_resting {s : State} (h : Resting s) : Resting (hdrParse s).state := by
  rw [hdrParse]
  split
  · rename_i hlegal
    rcases metaRead8_cases 0 s with ⟨-, e⟩ | ⟨-, e⟩ <;> rw [e]
    · rcases metaRead8_cases 1 s with ⟨-, e1⟩ | ⟨-, e1⟩ <;> rw [Res.bind_ok, e1]
      · have hver : Resting { s with ver := memRead s.metaMem 0 ++ memRead s.metaMem 1 } := h.headerRegisters ..
        rw [Res.bind_ok]
        dsimp only
        split
        · exact hver.stores.resting_raise (by decide)
        · exact hver.stores.resting_raise (by decide)
        · exact hdrBody_resting hver fun s1 hbps h1 => loadL2_resting h1 (hbps ▸ bpsLegal_iff.mp hlegal)
        · exact hdrBody_resting hver fun s1 _ h1 => loadDir_resting h1
      · exact h.stores.resting_raise (by decide)
    · exact h.stores.resting_raise (by decide)
  · exact h.stores.resting_raise (by decide)

theorem curveInterpolate_resting {s : State} (h : Resting s) : Resting (curveInterpolate s).state := by
  rw [curveInterpolate]
  split
  · rename_i hlegal
    split
    · exact h.stores.resting_raise (by decide)
    · exact interp_resting h (two_pow_bps_le (bpsLegal_iff.mp hlegal)) _
  · exact h.stores.resting_raise (by decide)

/-! ### The table builder -/

theorem slotsOk_iff (s : State) : slotsOk s = true ↔ storeRising s.hslot = true ∧ ∀ e ∈ s.hslot, e.1 < 65536 := by
  simp [slotsOk]

theorem slotsOk_clearBelow {s : State} (h : slotsOk s = true) (n : Nat) :
    slotsOk { s with hslot := storeClearBelow s.hslot n } = true := by
  rw [slotsOk_iff] at h ⊢
  obtain ⟨hrising, hkeys⟩ := h
  exact ⟨storeRising_storeClearBelow hrising n, fun e he => hkeys e (List.mem_of_mem_filter he)⟩

theorem slotsOk_setRange {s : State} (h : slotsOk s = true) {p n : Nat} (hn : p + n ≤ 65536) (v : Slot) :
    slotsOk { s with hslot := storeSetRange s.hslot p n v } = true := by
  rw [slotsOk_iff] at h ⊢
  obtain ⟨hrising, hkeys⟩ := h
  refine ⟨storeRising_storeSetRange hrising p n v, fun e he => ?_⟩
  simp only [storeSetRange, List.mem_append, List.mem_filter, List.mem_map, List.mem_range'_1] at he
  rcases he with (⟨he, -⟩ | ⟨q, hq, rfl⟩) | ⟨he, -⟩
  · exact hkeys e he
  · exact hq.2.trans_le hn
  · exact hkeys e he

/-- Assignment stays below `2^MAXLEN` (41_huffman.md R142, check 3). -/
theorem assignCodes_slotsOk (table : PackedTable) {m : Nat} (hm : m ≤ 16) (ls : List Nat) (p k : Nat) {s : State}
    (h : slotsOk s = true) : slotsOk (assignCodes table m ls p k s).state = true := by
  induction ls generalizing p k s with
  | nil => exact h
  | cons l ls ih =>
    have hpow : 2 ^ m ≤ 2 ^ 16 := Nat.pow_le_pow_right Nat.two_pos hm
    rw [assignCodes]
    dsimp only
    split
    · exact h
    · split
      · exact h
      · exact ih _ _ (slotsOk_setRange h (by omega) _)

theorem hbuild_slotsOk (t : Nat) {s : State} (h : slotsOk s = true) : slotsOk (hbuild t s).state = true := by
  rw [hbuild]
  dsimp only
  split
  · exact h
  · split
    · exact h
    · exact Res.state_bind_of_keeps (P := fun u => slotsOk u = true)
        (assignCodes_slotsOk _ (scanMaxLen_le _ 16) _ 0 0 (slotsOk_clearBelow h _)) fun _ _ hu => hu

/-- Every slot below FILL of a built table is some code's (41_huffman.md R142, R143). -/
theorem tableOk_withTable {table : PackedTable} {t : Nat} {slots : List (Nat × Slot)} {s : State} (ht : t ≤ 5)
    (hb : Buildable table) (hslots : SlotsOf table slots) (hrising : storeRising slots = true) :
    tableOk (withTable table t slots s) = true := by
  obtain ⟨hM, -, hfill, hpay⟩ := hb
  have hM16 := tableMaxLen_le table
  have hpow : 2 ^ tableMaxLen table ≤ 2 ^ 16 := Nat.pow_le_pow_right Nat.two_pos hM16
  have htsel : (BitVec.ofNat 3 t).toNat = t := by rw [BitVec.toNat_ofNat, Nat.mod_eq_of_lt (by omega)]
  have hmax : (BitVec.ofNat 5 (tableMaxLen table)).toNat = tableMaxLen table := toNat_ofNat_length le_rfl
  have hfillNat : (BitVec.ofNat 17 (tableFill table)).toNat = tableFill table := by
    rw [BitVec.toNat_ofNat, Nat.mod_eq_of_lt (by omega)]
  simp only [tableOk, withTable, htsel, hmax, hfillNat, Bool.not_true, Bool.false_or, Bool.and_eq_true, decide_eq_true_eq,
    List.all_eq_true, Bool.or_eq_true]
  refine ⟨⟨⟨⟨ht, Nat.one_le_iff_ne_zero.mpr hM⟩, hM16⟩, hfill⟩, fun ⟨q, e⟩ he => ?_⟩
  rcases Nat.lt_or_ge q (tableFill table) with hlt | hge
  · obtain ⟨k, hk, hlo, hhi⟩ := exists_inCode hlt
    have hget := storeGet_of_mem ((storeRising_iff_pairwise _).mp hrising) he
    rw [hslots.1 k hk q hlo hhi] at hget
    cases hget
    simp only [slotLegal, toNat_ofNat_length (codeLength_le hk), Bool.and_eq_true, decide_eq_true_eq]
    exact .inr ⟨⟨codeLength_pos hk, codeLength_le hk⟩, hpay k hk⟩
  · exact .inl hge

/-- A build leaves the table it was asked for in good stores, or the fault of a build. -/
theorem hbuild_keeps {t : Nat} {s : State} (ht : t ≤ 5) (h : StoresOk s) :
    (∃ slots, hbuild t s = .ok () (withTable (hromTable s t) t slots s) ∧
        StoresOk (withTable (hromTable s t) t slots s)) ∨
      ∃ u, hbuild t s = .raised u ∧ Resting u := by
  have hslotsOk := hbuild_slotsOk t h.slots
  by_cases hb : Buildable (hromTable s t)
  · obtain ⟨slots, hok, hslots, -⟩ := hbuild_of_buildable rfl hb
    rw [hok] at hslotsOk
    exact .inl ⟨slots, hok, h.curve, hslotsOk, h.data, h.metaMem,
      tableOk_withTable ht hb hslots ((slotsOk_iff _).mp hslotsOk).1⟩
  · obtain ⟨c, m, slots, hfailed, hraised⟩ := hbuild_of_not_buildable rfl hb
    rw [hraised] at hslotsOk
    have hstores : StoresOk { s with tvalid := false, hslot := slots, maxlen := m } :=
      ⟨h.curve, hslotsOk, h.data, h.metaMem, rfl⟩
    exact .inr ⟨_, hraised, hstores.resting_raise (by rw [FailedBuild_kind hfailed]; decide)⟩

/-! ### The decoder -/

/-- BP moved within DATA. -/
theorem Invariant.setBp {s : State} (h : Invariant s) {b : BitVec 32} {i : BitVec 3}
    (hbp : ReadsOn s (s.setBp b i)) : Invariant (s.setBp b i) := by
  refine ⟨h.fault, h.stores.of_eq rfl, fun hrun => ?_⟩
  have hd := h.active hrun
  obtain ⟨-, hmove⟩ := hbp
  exact ⟨hd.tvalid, hd.inside, (hmove hd.bp).2, hd.minReg, hd.maxReg, hd.tsel, hd.noSplit, hd.splitRow⟩

theorem Invariant.setBp_raise {s : State} (h : Invariant s) (b : BitVec 32) (i : BitVec 3) {c : FaultCause}
    (hc : c.kind ≠ .none) : Invariant ((s.setBp b i).raise c) :=
  StoresOk.invariant_raise (s := s.setBp b i) (h.stores.of_eq rfl) hc

theorem rdbits_invariant (n : Nat) {s : State} (h : Invariant s) : Invariant (rdbits n s).state := by
  have hbp := rdbits_readsOn n s
  rcases rdbits_bpOnly n s with ⟨_, b, i, e⟩ | ⟨b, i, e⟩ <;> rw [e] at hbp ⊢
  · exact h.setBp hbp
  · exact h.setBp_raise b i (by decide)

theorem hdec_invariant {s : State} (h : Invariant s) : Invariant (hdec s).state := by
  have hbp := hdec_readsOn s
  rcases hdec_frame s with ⟨_, b, i, e⟩ | ⟨b, i, c, hc, e⟩ <;> rw [e] at hbp ⊢
  · exact h.setBp hbp
  · exact h.setBp_raise b i (by rcases hc with rfl | rfl <;> decide)

theorem fetchRecord_invariant {s : State} (h : Invariant s) : Invariant (fetchRecord s).state :=
  Res.state_bind_of_keeps (hdec_invariant h) fun _ _ h1 =>
    Res.state_bind_of_keeps (rdbits_invariant _ h1) fun _ _ h2 => h2

theorem brreset_invariant {s : State} (h : Invariant s) : Invariant (brreset s) := by
  have hbp := brreset_readsOn s
  rw [brreset_eq] at hbp ⊢
  exact h.setBp hbp

/-- The lanes and the raster are in no part of it. -/
theorem Invariant.lanes {s : State} (h : Invariant s) (vpred00 vpred01 vpred10 vpred11 hpred0 hpred1 : Word)
    (raster : List RasterEvent) :
    Invariant { s with
      vpred00 := vpred00, vpred01 := vpred01, vpred10 := vpred10, vpred11 := vpred11
      hpred0 := hpred0, hpred1 := hpred1, raster := raster } := by
  refine ⟨h.fault, h.stores.of_eq rfl, fun hrun => ?_⟩
  have hd := h.active hrun
  exact ⟨hd.tvalid, hd.inside, hd.bp, hd.minReg, hd.maxReg, hd.tsel, hd.noSplit, hd.splitRow⟩

theorem predUpd_invariant (diff : Int) {s : State} (h : Invariant s) : Invariant (predUpd diff s).2 := by
  obtain ⟨_, _, _, _, _, _, e⟩ := predUpd_frame diff s
  rw [e]
  exact h.lanes ..

theorem emit_invariant (v : Word) {s : State} (h : Invariant s) : Invariant (emit v s) := by
  rcases emit_cases v s with ⟨-, e⟩ | ⟨-, e⟩ <;> rw [e]
  · exact h.lanes ..
  · exact h

/-- The next position is inside the image, or the decode is done (43_predictive.md R204). -/
theorem advance_invariant {s : State} (h : Invariant s) (hrun : s.run = .active) : Invariant (advance s) := by
  have hd := h.active hrun
  have hf : s.run ≠ .fault := by simp [hrun]
  have hin := inside_advance hd.inside
  rcases advance_cases s with ⟨-, e⟩ | ⟨-, -, e⟩ | ⟨-, -, e⟩ <;> rw [e] at hin ⊢
  case inr.inl =>
    exact Resting.invariant ⟨faultRecordOk_of_no_fault h.fault hf (by simp) rfl rfl,
      h.stores.of_eq rfl, by simp⟩
  all_goals
    exact ⟨h.fault, h.stores.of_eq rfl, fun hrun =>
      ⟨hd.tvalid, hin hrun, hd.bp, hd.minReg, hd.maxReg, hd.tsel, hd.noSplit, hd.splitRow⟩⟩

theorem run_predUpd (diff : Int) (s : State) : (predUpd diff s).2.run = s.run := by
  obtain ⟨_, _, _, _, _, _, e⟩ := predUpd_frame diff s
  rw [e]

theorem pixelRecord_invariant (len shl raw : Nat) {s : State} (h : Invariant s) (hrun : s.run = .active) :
    Invariant (pixelRecord len shl raw s).state := by
  have hu := predUpd_invariant (residual len shl raw) h
  rcases pixelRecord_cases len shl raw s with ⟨-, e⟩ | ⟨-, -, e⟩ | ⟨v, -, -, e⟩ <;> rw [e]
  · exact hu.stores.invariant_raise (by decide)
  · exact hu.stores.invariant_raise (by decide)
  · exact advance_invariant (emit_invariant v hu) (by rw [emit_run, run_predUpd, hrun])

/-- What is fetched is fetched in the same state of RUN. -/
theorem run_of_fetchRecord {s s1 : State} {r : Record} (h : fetchRecord s = .ok r s1) : s1.run = s.run := by
  rcases fetchRecord_frame s with ⟨_, _, _, e⟩ | ⟨_, _, _, -, e⟩ <;> rw [e] at h <;> cases h
  rfl

theorem pixBody_invariant {s : State} (h : Invariant s) (hrun : s.run = .active) : Invariant (pixBody s).state := by
  have hf := fetchRecord_invariant h
  refine Res.state_bind hf fun r s1 e => ?_
  rw [e] at hf
  exact pixelRecord_invariant _ _ _ hf ((run_of_fetchRecord e).trans hrun)

/-! ### The split transition -/

theorem splitDue_iff (s : State) :
    splitDue s = true ↔ s.col = 0 ∧ s.split ≠ 0 ∧ s.row = s.split ∧ s.mode = .normal := by
  simp only [splitDue, Bool.and_eq_true, decide_eq_true_eq, and_assoc]

/-- Where a split is due the table in use is 0 or 3, so there is one after it (43_predictive.md R203). -/
theorem Decoding.tsel_of_splitDue {s : State} (h : Decoding s) (hdue : splitDue s = true) :
    s.lossless = false ∧ s.tsel.toNat + 1 ≤ 5 := by
  obtain ⟨-, hsplit, -, hmode⟩ := (splitDue_iff s).mp hdue
  have hlossless : s.lossless = false := by
    rw [Bool.eq_false_iff]
    exact fun hl => h.noSplit ⟨hl, hsplit⟩
  refine ⟨hlossless, ?_⟩
  rw [h.tsel, tableIndex, hlossless, hmode]
  split <;> decide

/-- The transition leaves the bounds, the table and the mode of SPLIT, or the fault of its build (R203). -/
theorem splitTrans_invariant {s : State} (h : Invariant s) (hrun : s.run = .active) (hdue : splitDue s = true) :
    (∃ u, splitTrans s = .raised u ∧ Invariant u) ∨
      ∃ s1, splitTrans s = .ok () s1 ∧ Invariant s1 ∧ s1.run = .active := by
  obtain ⟨-, hsplit, -, hmode⟩ := (splitDue_iff s).mp hdue
  obtain ⟨-, ht⟩ := (h.active hrun).tsel_of_splitDue hdue
  have hb := brreset_invariant h
  have hd := hb.active (by rw [brreset_run, hrun])
  have hmax := hd.maxReg
  have htsel := hd.tsel
  rw [brreset_mode, hmode] at hmax
  rcases hbuild_keeps ht hb.stores with ⟨slots, e, hstores⟩ | ⟨u, e, hu⟩
  · rcases splitTrans_cases s with ⟨s2, e', hs⟩ | ⟨s2, e', -⟩ <;> rw [e] at e' <;> cases e'
    refine .inr ⟨_, hs, ⟨hb.fault, hstores.of_eq rfl,
      fun _ => ⟨rfl, hd.inside, hd.bp, rfl, ?_, ?_, hd.noSplit, fun hno => hsplit ?_⟩⟩, ?_⟩
    · change ((brreset s).maxReg + 32).toNat ≤ 0x4001 + 32 * 1
      simp only [Mode.code] at hmax
      bv_omega
    · change (BitVec.ofNat 3 (s.tsel.toNat + 1)).toNat = _ + _ + 1
      rw [brreset_tsel, tableIndex, brreset_mode, hmode] at htsel
      rw [BitVec.toNat_ofNat, Nat.mod_eq_of_lt (by omega), htsel]
      rfl
    · rw [← brreset_split]; exact hno.2
    · exact (brreset_run s).trans hrun
  · rcases splitTrans_cases s with ⟨s2, e', -⟩ | ⟨s2, e', hs⟩ <;> rw [e] at e' <;> cases e'
    exact .inl ⟨u, hs, hu.invariant⟩

theorem pixStep_invariant {s t : State} (h : Invariant s) (hrun : s.run = .active) (ht : pixStep s = .ok t) :
    Invariant t := by
  rcases pixStep_cases ht with ⟨-, rfl⟩ | ⟨hdue, -, e | ⟨s1, e, rfl⟩⟩
  · exact pixBody_invariant h hrun
  all_goals rcases splitTrans_invariant h hrun hdue with ⟨u, e', hu⟩ | ⟨u, e', hu, hurun⟩ <;> rw [e] at e' <;> cases e'
  · exact hu
  · exact pixBody_invariant hu hurun

theorem runLoop_invariant {n : Nat} {s t : State} (h : Invariant s) (ht : runLoop n s = .ok t) : Invariant t :=
  runLoop_keeps (P := Invariant) (fun _ _ hrun hp hs => pixStep_invariant hs hrun hp) ht h

/-! ### START -/

/-- What START's checks pass is what a decode begins with (44_host_commands.md R241). -/
theorem startDecode_invariant {s : State} (h : Invariant s) (hrun : s.run = .idle) (hs : startRefused s = false) :
    Invariant (startDecode s).state := by
  simp only [startRefused, Bool.or_eq_false_iff, Bool.and_eq_false_imp, decide_eq_false_iff_not, not_not, Nat.not_lt,
    gt_iff_lt] at hs
  obtain ⟨⟨-, hsplit⟩, hmax⟩ := hs
  have ht := startTable_le s
  rw [startDecode]
  rcases hbuild_keeps ht h.stores with ⟨slots, e, hstores⟩ | ⟨u, e, hu⟩ <;> rw [e]
  · have htsel : (BitVec.ofNat 3 (3 * (if s.bps = 14 then 1 else 0) + 2 * s.lossless.toNat)).toNat =
        3 * (if s.bps = 14 then 1 else 0) + 2 * s.lossless.toNat := by
      rw [BitVec.toNat_ofNat, Nat.mod_eq_of_lt (by omega)]
    refine ⟨faultRecordOk_of_no_fault h.fault (by simp [hrun]) ?_ rfl rfl, hstores.of_eq rfl, fun hactive => ?_⟩
    · change (if s.height = 0 ∨ s.raww = 0 then RunState.done else .active) ≠ .fault
      split <;> simp
    · change (if s.height = 0 ∨ s.raww = 0 then RunState.done else .active) = .active at hactive
      have himage : ¬(s.height = 0 ∨ s.raww = 0) := by
        intro hempty
        rw [if_pos hempty] at hactive
        cases hactive
      rw [not_or, ← BitVec.toNat_inj, ← BitVec.toNat_inj] at himage
      exact ⟨rfl, ⟨Nat.pos_of_ne_zero himage.1, Nat.pos_of_ne_zero himage.2⟩, Nat.zero_le _, rfl, hmax, htsel,
        fun hno => hno.2 (hsplit hno.1), fun hno => by cases hno.1⟩
  · exact hu.invariant

/-! ### A step -/

/-- RESULT is in no part of it. -/
theorem Invariant.result {s : State} (h : Invariant s) (result : Word) : Invariant { s with result := result } := by
  refine ⟨h.fault, h.stores.of_eq rfl, fun hrun => ?_⟩
  have hd := h.active hrun
  exact ⟨hd.tvalid, hd.inside, hd.bp, hd.minReg, hd.maxReg, hd.tsel, hd.noSplit, hd.splitRow⟩

/-- The model's own fields are in no part of it. -/
theorem Invariant.host {s : State} (h : Invariant s) (hostIn : List HostAccess) (hostOut : List Word) (draws : Nat) :
    Invariant { s with hostIn := hostIn, hostOut := hostOut, draws := draws } := by
  refine ⟨h.fault, h.stores.of_eq rfl, fun hrun => ?_⟩
  have hd := h.active hrun
  exact ⟨hd.tvalid, hd.inside, hd.bp, hd.minReg, hd.maxReg, hd.tsel, hd.noSplit, hd.splitRow⟩

theorem resetAll_invariant {s : State} (h : StoresOk s) : Invariant (resetAll s) :=
  Resting.invariant ⟨rfl, ⟨rfl, rfl, h.data, h.metaMem, rfl⟩, by simp [State.reset]⟩

theorem CommandEffect.invariant {w : Word} {s t : State} (he : CommandEffect w s t) (h : Invariant s) : Invariant t := by
  have hidle : s.run = .idle → Resting s := fun hrun => h.resting (by simp [hrun])
  cases he with
  | nop => exact h
  | reset => exact resetAll_invariant h.stores
  | refused c hc => exact h.stores.invariant_raise (by rcases hc with rfl | rfl <;> decide)
  | hdr hrun => exact (hdrParse_resting (hidle hrun)).invariant
  | cint hrun => exact (curveInterpolate_resting (hidle hrun)).invariant
  | ctrim hrun => exact (ctrim_resting (hidle hrun)).invariant
  | hbld hrun n hn =>
    rcases hbuild_keeps hn h.stores with ⟨slots, e, hstores⟩ | ⟨u, e, hu⟩ <;> rw [e]
    · exact Resting.invariant ⟨h.fault, hstores, by simp [withTable, hrun]⟩
    · exact hu.invariant
  | startRefused => exact h.stores.invariant_raise (by decide)
  | start hrun hs => exact startDecode_invariant h hrun hs
  | step hrun ht => exact pixStep_invariant h hrun ht
  | run _ ht => exact runLoop_invariant h ht
  | brst => exact brreset_invariant h
  | rdb _ n => exact Res.state_bind_of_keeps (rdbits_invariant _ h) fun _ _ h1 => h1.result _
  | noTable => exact h.stores.invariant_raise (by decide)
  | hdec => exact Res.state_bind_of_keeps (hdec_invariant h) fun _ _ h1 => h1.result _

theorem regStore_resting {s : State} (h : Resting s) (addr : Nat) (v : Word) : Resting (regStore addr v s) := by
  unfold regStore
  split <;> exact ⟨h.fault, h.stores.of_eq rfl, h.run⟩

theorem regWrite_invariant {s : State} (h : Invariant s) (addr : Nat) (v : Word) : Invariant (regWrite addr v s) := by
  have hidle : s.run = .idle → Resting s := fun hrun => h.resting (by simp [hrun])
  rcases regWrite_cases addr v s with
    ⟨-, e⟩ | ⟨-, -, e⟩ | ⟨-, -, -, e⟩ | ⟨-, hrun, hc, e⟩ | ⟨-, -, hrun, e⟩ <;> rw [e]
  · exact h.stores.invariant_raise (by decide)
  · exact h.stores.invariant_raise (by decide)
  · exact h.stores.invariant_raise (by decide)
  · have hw := (hidle hrun).curveWrite hc v
    exact Resting.invariant ⟨hw.fault, hw.stores.of_eq rfl, hw.run⟩
  · exact (regStore_resting (hidle hrun) addr v).invariant

theorem StepEffect.invariant {s t : State} (he : StepEffect s t) (h : Invariant s) : Invariant t := by
  have hin : ∀ rest, Invariant { s with hostIn := rest } := fun rest => h.host rest _ _
  cases he with
  | waits => exact h
  | @hardReset rest => exact resetAll_invariant (hin rest).stores
  | @read addr rest =>
    obtain ⟨n, e⟩ := serveRead_frame addr.toNat { s with hostIn := rest }
    rw [e]
    exact h.host ..
  | @faultReset rest => exact resetAll_invariant (hin rest).stores
  | @ignored _ _ rest => exact hin rest
  | @command _ rest _ _ _ heff => exact heff.invariant (hin rest)
  | @regWrite addr v rest => exact regWrite_invariant (hin rest) _ _

/-- Settles O51: the invariant by its parts, and each part by the unit the step runs. -/
theorem stepKeepsInvariant : Obligations.StepKeepsInvariant := fun _ _ hinv h =>
  (inv_iff _).mpr ((step_effect h).invariant ((inv_iff _).mp hinv))

/-- Settles O2: the state after reset has the stores of every reset. -/
theorem resetMeetsInvariant : Obligations.ResetMeetsInvariant :=
  (inv_iff _).mpr (resetAll_invariant (s := State.reset) ⟨rfl, rfl, rfl, rfl, rfl⟩)

/-- Settles O58: while ACTIVE the invariant has BP within DATA, and from there BP only moves on. -/
theorem bitPointerNeverGoesBack : Obligations.BitPointerNeverGoesBack := by
  intro s t hinv hrun hn h
  obtain ⟨-, hmove⟩ := readsOn_decodeRelation.of_step hrun hn h
  exact (hmove (((inv_iff s).mp hinv).active hrun).bp).1

end Sys2Proof.Machine
end

section
/-! PROOFS. The execution of a fetched record (43_predictive.md R193 to R204): its residual by the payload class, its bounds
check as a signed window, its lanes, and what each of its three ends leaves. -/

namespace Sys2Proof.Machine

/-! ### The residual -/

/-- With `shl` at least 1 the raw bits stand above a 1 and `shl - 1` zeros (43_predictive.md R193). -/
theorem scaled_succ (k raw : Nat) : scaled (k + 1) raw = raw * 2 ^ (k + 1) + 2 ^ k := by
  have hshift : (raw * 2 + 1) * 2 ^ (k + 1) = (raw * 2 ^ (k + 1) + 2 ^ k) * 2 := by ring
  simp only [scaled, Nat.shiftLeft_eq, Nat.shiftRight_eq_div_pow, Nat.pow_one]
  rw [hshift, Nat.mul_div_cancel _ Nat.two_pos]

theorem scaled_pos {shl : Nat} (h : shl ≠ 0) (raw : Nat) : 0 < scaled shl raw := by
  obtain ⟨k, rfl⟩ := Nat.exists_eq_add_one_of_ne_zero h
  rw [scaled_succ]
  exact Nat.add_pos_right _ (Nat.two_pow_pos k)

/-- The scaled value has `len` bits (30_encoding.md R93). -/
theorem scaled_lt {len shl raw : Nat} (hshl : shl ≤ len) (hraw : raw < 2 ^ (len - shl)) : scaled shl raw < 2 ^ len := by
  cases shl with
  | zero => rwa [scaled_zero]
  | succ k =>
    have hlen : 2 ^ len = 2 ^ (len - (k + 1)) * 2 ^ (k + 1) := by rw [← Nat.pow_add, Nat.sub_add_cancel hshl]
    have hk : 2 ^ k < 2 ^ (k + 1) := Nat.pow_lt_pow_right Nat.one_lt_two k.lt_succ_self
    calc scaled (k + 1) raw < raw * 2 ^ (k + 1) + 2 ^ (k + 1) := by rw [scaled_succ]; omega
      _ = (raw + 1) * 2 ^ (k + 1) := by ring
      _ ≤ 2 ^ len := by rw [hlen]; exact Nat.mul_le_mul_right _ hraw

/-- The residual by the sign bit of the scaled value (43_predictive.md R194). -/
theorem residual_of_pos {len : Nat} (hlen : len ≠ 0) (shl raw : Nat) :
    residual len shl raw =
      if (scaled shl raw).testBit (len - 1) then (scaled shl raw : Int)
      else scaled shl raw - 2 ^ len + (if shl = 0 then 1 else 0) := by
  have hpos : 1 ≤ len := Nat.one_le_iff_ne_zero.mpr hlen
  unfold residual
  dsimp only
  cases (scaled shl raw).testBit (len - 1)
  · simp [hpos, Nat.shiftLeft_eq]
    ring
  · simp

theorem recordDiff_of_pos {len : Nat} (hlen : len ≠ 0) (shl raw : Nat) :
    recordDiff len shl raw =
      if (scaled shl raw).testBit (len - 1) then (scaled shl raw : Int)
      else scaled shl raw - 2 ^ len + (if shl = 0 then 1 else 0) := by
  cases shl with
  | zero => simp [recordDiff, hlen, scaled_zero]
  | succ k => simp [recordDiff, hlen, scaled_succ]

/-- A record without any bit has residual 0 (R195). -/
theorem residual_zero : residual 0 0 0 = 0 := rfl

theorem residual_eq_recordDiff {len shl raw : Nat} (hshl : shl ≤ len) (hraw : raw < 2 ^ (len - shl)) :
    residual len shl raw = recordDiff len shl raw := by
  by_cases hlen : len = 0
  · subst hlen
    obtain rfl : shl = 0 := Nat.le_zero.mp hshl
    obtain rfl : raw = 0 := Nat.lt_one_iff.mp hraw
    rfl
  · rw [residual_of_pos hlen, recordDiff_of_pos hlen]

/-- The residual has 15 bits and a sign (R207). -/
theorem residual_bounds {len shl raw : Nat} (hshl : shl ≤ len) (hlen : len ≤ 15) (hraw : raw < 2 ^ (len - shl)) :
    -(2 ^ 15 - 1) ≤ residual len shl raw ∧ residual len shl raw ≤ 2 ^ 15 - 1 := by
  by_cases h0 : len = 0
  · rw [residual_eq_recordDiff hshl hraw, recordDiff, if_pos h0]
    decide
  · have hlt : (scaled shl raw : Int) < 2 ^ len := by exact_mod_cast scaled_lt hshl hraw
    have hpow : (2 : Int) ^ len ≤ 2 ^ 15 := by exact_mod_cast Nat.pow_le_pow_right Nat.two_pos hlen
    have hpos : shl ≠ 0 → 0 < scaled shl raw := fun h => scaled_pos h raw
    rw [residual_of_pos h0]
    split_ifs <;> omega

/-- Settles O20: both formulas go by the sign bit of the scaled value, which has `len` bits. -/
theorem residualByPayloadClass : Obligations.ResidualByPayloadClass := fun _ _ _ hshl hlen hraw =>
  ⟨residual_eq_recordDiff hshl hraw, residual_bounds hshl hlen hraw⟩

/-! ### The bounds check -/

/-- Settles O22: with MIN added, the lane values of the window are the words below MAX, as neither end of it wraps. -/
theorem boundsAreASignedWindow : Obligations.BoundsAreASignedWindow := by
  intro s pred hmax hmin
  have hpred := pred.isLt
  have hcheck : outOfBounds s pred = false ↔ (pred.toNat + s.minReg.toNat) % 65536 < s.maxReg.toNat := by
    rw [outOfBounds, decide_eq_false_iff_not, Nat.not_le, BitVec.toNat_add]
  have hminNat : s.minReg.toNat = 0 ∨ s.minReg.toNat = 16 := by
    rcases hmin with h | h <;> simp [h]
  rw [hcheck, BitVec.toInt_eq_toNat_cond]
  split <;> omega

/-! ### The lanes -/

/-- The parity bit of a position register. -/
theorem getLsbD_zero_eq (x : Word) : x.getLsbD 0 = decide (x.toNat % 2 = 1) := by
  rw [BitVec.getLsbD, Nat.testBit_zero]

/-- A lane plus a residual, modulo 2^16 (43_predictive.md R196). -/
theorem add_ofInt_eq (lane : Word) (diff : Int) : lane + BitVec.ofInt 16 diff = BitVec.ofInt 16 (lane.toNat + diff) := by
  rw [BitVec.ofInt_add, BitVec.ofInt_natCast, BitVec.ofNat_toNat, BitVec.setWidth_eq]

/-- PREDUPD adds the residual to the pixel's lane and writes the lanes of its column (R196, R197). -/
theorem predUpd_eq (diff : Int) (s : State) :
    predUpd diff s = (pixelPred diff s, pixelLanes (pixelPred diff s) s) := by
  simp only [predUpd, getLsbD_zero_eq, add_ofInt_eq, pixelPred, pixelLane]
  by_cases h2 : s.col.toNat < 2
  · have hcol : s.col.toNat = 0 ∨ s.col.toNat = 1 := by omega
    rcases hcol with hc | hc <;> by_cases hr : s.row.toNat % 2 = 1 <;>
      simp [hc, hr, pixelLanes, State.setVpred, State.setHpred]
  · have h0 : s.col.toNat ≠ 0 := by omega
    have h1 : s.col.toNat ≠ 1 := by omega
    by_cases hc : s.col.toNat % 2 = 1 <;> simp [h0, h1, h2, hc, pixelLanes, State.setHpred]

/-! ### The three ends of a record -/

theorem emit_eq (v : Word) (s : State) :
    emit v s = { s with
      raster :=
        if s.lmargin.toNat ≤ s.col.toNat ∧ s.col.toNat - s.lmargin.toNat < s.visw.toNat then
          s.raster ++ [⟨s.row, s.col - s.lmargin, v⟩]
        else s.raster } := by
  simp only [emit, inWindow, ← Bool.decide_and, decide_eq_true_eq]
  split <;> rfl

theorem advance_eq (s : State) :
    advance s = { s with
      col := if s.col.toNat + 1 < s.raww.toNat then s.col + 1 else 0
      row := if s.col.toNat + 1 < s.raww.toNat then s.row else s.row + 1
      run :=
        if s.col.toNat + 1 < s.raww.toNat then s.run
        else if s.row + 1 = s.height then .done else s.run } := by
  unfold advance
  split <;> rfl

/-- The pixel emitted and passed (R200, R204). -/
theorem advance_emit_pixelLanes (p v : Word) (s : State) : advance (emit v (pixelLanes p s)) = pixelResult p v s := by
  rw [advance_eq, emit_eq]
  rfl

section

variable {len shl raw : Nat} {s : State} {p : Word}

/-- Outside the bounds a record faults with its lanes written (R198). -/
theorem pixelRecord_of_out (hp : pixelPred (residual len shl raw) s = p)
    (hout : s.maxReg.toNat ≤ (p + s.minReg).toNat) :
    pixelRecord len shl raw s = .raised ((pixelLanes p s).raise .bounds) := by
  have h := pixelRecord_cases len shl raw s
  rw [predUpd_eq, hp] at h
  have hb : outOfBounds (pixelLanes p s) p = true := decide_eq_true hout
  simpa [hb] using h

/-- Inside the bounds over an unwritten curve entry it faults with its lanes written (R199). -/
theorem pixelRecord_of_unwritten (hp : pixelPred (residual len shl raw) s = p)
    (hin : (p + s.minReg).toNat < s.maxReg.toNat) (hv : storeGet s.curve (curveIndex p) = none) :
    pixelRecord len shl raw s = .raised ((pixelLanes p s).raise .curveUnwritten) := by
  have h := pixelRecord_cases len shl raw s
  rw [predUpd_eq, hp] at h
  have hb : outOfBounds (pixelLanes p s) p = false := decide_eq_false (Nat.not_le.mpr hin)
  have hcurve : storeGet (pixelLanes p s).curve (curveIndex p) = none := hv
  simpa [hb, hcurve] using h

/-- Inside the bounds over a written curve entry it completes. -/
theorem pixelRecord_of_written {v : Word} (hp : pixelPred (residual len shl raw) s = p)
    (hin : (p + s.minReg).toNat < s.maxReg.toNat) (hv : storeGet s.curve (curveIndex p) = some v) :
    pixelRecord len shl raw s = .ok () (pixelResult p v s) := by
  have h := pixelRecord_cases len shl raw s
  rw [predUpd_eq, hp] at h
  have hb : outOfBounds (pixelLanes p s) p = false := decide_eq_false (Nat.not_le.mpr hin)
  have hcurve : storeGet (pixelLanes p s).curve (curveIndex p) = some v := hv
  simpa [hb, hcurve, advance_emit_pixelLanes] using h

theorem execRecord_of_active (hrun : s.run = .active) :
    execRecord len shl raw s = .next (pixelRecord len shl raw s).state :=
  gate_allowed (by simp [hrun]) (allowActive_iff.mpr hrun)

end

/-! ### The instructions of the records -/

/-- An instruction that executes a record with a legal payload and raw field completes as the pixel rules say. -/
theorem recordCompletes_of_exec {i : Instr} {len shl raw : Nat} (hexec : ∀ s, exec i s = execRecord len shl raw s)
    (hshl : shl ≤ len) (hraw : raw < 2 ^ (len - shl)) : RecordCompletes i len shl raw := by
  intro s v hrun hin hv
  rw [hexec, execRecord_of_active hrun,
    pixelRecord_of_written (by rw [residual_eq_recordDiff hshl hraw]) hin hv, Res.state_ok]

/-- A codeword row: the raw field has the width its payload asks for. -/
theorem row_completes {n len shl : Nat} {make : BitVec n → Instr}
    (hexec : ∀ raw s, exec (make raw) s = execRecord len shl raw.toNat s := by intros; rfl)
    (hshl : shl ≤ len := by decide) (hn : n = len - shl := by rfl) :
    ∀ raw, RecordCompletes (make raw) len shl raw.toNat := fun raw =>
  recordCompletes_of_exec (hexec raw) hshl (hn ▸ raw.isLt)

/-- A codeword row without raw bits. -/
theorem zero_row_completes {i : Instr} (hexec : ∀ s, exec i s = execRecord 0 0 0 s := by intros; rfl) :
    RecordCompletes i 0 0 0 :=
  recordCompletes_of_exec hexec le_rfl Nat.one_pos

theorem wf_pxPlain {len raw : Nat} :
    (Instr.pxPlain len raw).wf = true ↔ 1 ≤ len ∧ len ≤ 15 ∧ raw < 2 ^ len := by
  simp only [Instr.wf, Bool.and_eq_true, decide_eq_true_eq, and_assoc]

theorem wf_pxScaled {len shl raw : Nat} :
    (Instr.pxScaled len shl raw).wf = true ↔ 1 ≤ shl ∧ shl ≤ len ∧ len ≤ 15 ∧ raw < 2 ^ (len - shl) := by
  simp only [Instr.wf, Bool.and_eq_true, decide_eq_true_eq, and_assoc]

/-- Settles O16, by the class. -/
theorem recordClassesComplete : Obligations.RecordClassesComplete := by
  refine ⟨zero_row_completes, fun len raw hwf => ?_, fun len shl raw hwf => ?_⟩
  · obtain ⟨-, -, hraw⟩ := wf_pxPlain.mp hwf
    exact recordCompletes_of_exec (fun _ => rfl) (Nat.zero_le _) hraw
  · obtain ⟨-, hshl, -, hraw⟩ := wf_pxScaled.mp hwf
    exact recordCompletes_of_exec (fun _ => rfl) hshl hraw

/-- Settles O19: the class gives the residual, the bounds check and the curve the end. -/
theorem recordFaultsKeepTheLane : Obligations.RecordFaultsKeepTheLane := by
  intro i len shl raw s hi hwf hrun
  have hexec : exec i s = execRecord len shl raw s ∧ shl ≤ len ∧ raw < 2 ^ (len - shl) := by
    rcases hi with ⟨rfl, rfl, rfl, rfl⟩ | ⟨rfl, rfl⟩ | rfl
    · exact ⟨rfl, le_rfl, Nat.one_pos⟩
    · obtain ⟨-, -, hraw⟩ := wf_pxPlain.mp hwf
      exact ⟨rfl, Nat.zero_le _, hraw⟩
    · obtain ⟨-, hshl, -, hraw⟩ := wf_pxScaled.mp hwf
      exact ⟨rfl, hshl, hraw⟩
  obtain ⟨e, hshl, hraw⟩ := hexec
  have hp : pixelPred (residual len shl raw) s = pixelPred (recordDiff len shl raw) s := by
    rw [residual_eq_recordDiff hshl hraw]
  rw [e, execRecord_of_active hrun]
  refine ⟨fun hout => ?_, fun hin hv => ?_⟩
  · rw [pixelRecord_of_out hp hout, Res.state_raised]
  · rw [pixelRecord_of_unwritten hp hin hv, Res.state_raised]

/-! ### The rows of the candidate tables -/

/-- Settles O17, row by row in code order: the width of the row's raw field is the one its payload asks for (PRESUMED, log
entry 6). -/
theorem tables0To2RecordsComplete : Obligations.Tables0To2RecordsComplete :=
  ⟨row_completes, row_completes, row_completes, row_completes, row_completes, row_completes, row_completes,
    zero_row_completes, row_completes, row_completes, row_completes, row_completes, row_completes, zero_row_completes,
    row_completes, row_completes, row_completes, row_completes, row_completes, row_completes, row_completes,
    row_completes, row_completes, row_completes, zero_row_completes, row_completes, row_completes, row_completes,
    row_completes, row_completes, row_completes, row_completes, row_completes, row_completes, row_completes,
    row_completes, row_completes, zero_row_completes, row_completes, row_completes, row_completes⟩

/-- Settles O18, in the same way. -/
theorem tables3To5RecordsComplete : Obligations.Tables3To5RecordsComplete :=
  ⟨row_completes, row_completes, row_completes, row_completes, row_completes, row_completes, row_completes,
    row_completes, row_completes, zero_row_completes, row_completes, row_completes, row_completes, row_completes,
    row_completes, row_completes, row_completes, row_completes, row_completes, row_completes, row_completes,
    row_completes, row_completes, row_completes, row_completes, row_completes, row_completes, zero_row_completes,
    row_completes, row_completes, row_completes, row_completes, row_completes, row_completes, row_completes,
    row_completes, row_completes, row_completes, row_completes, row_completes, row_completes, zero_row_completes,
    row_completes, row_completes, row_completes⟩

end Sys2Proof.Machine
end

section
/-! PROOFS. STEP (44_host_commands.md R242): the one pixel at BP, the split row with its build, and the instruction that a
fetched record stands for (43_predictive.md R203, R205). -/

namespace Sys2Proof.Machine

variable {table : PackedTable} {s : State} {k : Nat}

/-! ### The pixel at BP -/

/-- With the k-th codeword and its raw bits next in DATA the fetch answers them, BP past the record (R191, R192). -/
theorem fetchRecord_of_codeword (hT : HoldsTable table s) (hk : k < (tableLengths table).length)
    (hleft : codeLength table k + payloadRawBits (codePayload table k) ≤ bitsLeft s)
    (hbits : bitsAt s (bitPos s) (codeLength table k) = codeword table k) :
    fetchRecord s =
      .ok ⟨codeLength table k, codeword table k, codePayload table k,
          bitsAt s (bitPos s + codeLength table k) (payloadRawBits (codePayload table k))⟩
        (s.setBitPos (bitPos s + codeLength table k + payloadRawBits (codePayload table k))) := by
  have hcode : codeLength table k ≤ bitsLeft s := (Nat.le_add_right _ _).trans hleft
  have hraw : payloadRawBits (codePayload table k) ≤ bitsLeft (s.setBitPos (bitPos s + codeLength table k)) := by
    rw [bitsLeft_setBitPos_add hcode]
    omega
  rw [fetchRecord, hdec_of_codeword hT hk hcode hbits, Res.bind_ok, rdbits_of_left hraw, Res.bind_ok,
    bitPos_setBitPos_add hcode, bitsAt_setBitPos, State.setBitPos_setBitPos]

/-- Away from the split row a STEP is the execution of the record fetched. -/
theorem exec_step_of_fetched {s1 : State} {r : Record} (hrun : s.run = .active) (hdue : splitDue s = false)
    (h : fetchRecord s = .ok r s1) :
    exec .step s = .next (pixelRecord (payloadLen r.payload) (payloadShl r.payload) r.raw s1).state := by
  rw [exec_step_of_active hrun, pixStep_of_not_due hdue, pixBody, h, Res.bind_ok]

/-- Settles O23: the record is fetched and completes. -/
theorem stepDecodesOnePixel : Obligations.StepDecodesOnePixel := by
  intro s table k v hrun hdue hT hk l n raw p hleft hbits hin hv
  have ⟨⟨_, _, _, hlegal⟩, _⟩ := hT
  have hraw : raw < 2 ^ payloadRawBits (codePayload table k) := bitsAt_lt s _ _
  have hp : pixelPred (residual (payloadLen (codePayload table k)) (payloadShl (codePayload table k)) raw)
      (s.setBitPos (bitPos s + l + n)) = p := by
    rw [residual_eq_recordDiff (hlegal k hk) hraw]
    rfl
  rw [exec_step_of_fetched hrun hdue (fetchRecord_of_codeword hT hk hleft hbits), pixelRecord_of_written hp hin hv,
    Res.state_ok]

/-! ### The split row -/

theorem brreset_eq_ite (s : State) : brreset s = if s.bpBit = 0 then s else s.setBp (s.bpByte + 1) 0 := by
  rw [brreset, ite_not]

theorem hromTable_brreset (s : State) (t : Nat) : hromTable (brreset s) t = hromTable s t := by
  rw [hromTable, brreset_cfg]
  rfl

/-- After a split transition that builds, the step is a pixel step in SPLIT, where no split is due (R202, R203). -/
theorem exec_step_of_splitTrans {u : State} (hrun : s.run = .active) (hdue : splitDue s = true)
    (ht : s.tsel.toNat + 1 ≤ 5) (h : splitTrans s = .ok () u) (hu : u.run = .active) (hmode : u.mode = .split) :
    exec .step s = exec .step u := by
  have hnot : splitDue u = false := by simp [splitDue, hmode]
  rw [(exec_step_of_active hu).mpr (pixStep_of_not_due hnot), exec_step_of_active hrun, pixStep_of_due hdue ht, h,
    Res.bind_ok]

/-- Settles O25: the transition's build of a table that passes the checks. -/
theorem stepAtSplitRow : Obligations.StepAtSplitRow := by
  intro s hrun hdue ht hb
  rw [← brreset_eq_ite]
  obtain ⟨slots, hok, hslots, hkeep⟩ := hbuild_of_buildable (s := brreset s) (hromTable_brreset s _) hb
  refine ⟨slots, hslots, fun q hq => by rw [hkeep q hq, brreset_hslot], ?_⟩
  rcases splitTrans_cases s with ⟨s2, e, hs⟩ | ⟨s2, e, -⟩ <;> rw [hok] at e <;> cases e
  rw [exec_step_of_splitTrans hrun hdue ht hs ((brreset_run s).trans hrun) rfl, ← brreset_maxReg s]
  rfl

/-- Settles O26: the transition's build of a table that does not. -/
theorem splitBuildFault : Obligations.SplitBuildFault := by
  intro s hrun hdue ht hb
  rw [← brreset_eq_ite]
  obtain ⟨c, m, slots, hfailed, hraised⟩ := hbuild_of_not_buildable (s := brreset s) (hromTable_brreset s _) hb
  rw [FailedBuild, brreset_maxlen, brreset_hslot] at hfailed
  refine ⟨c, m, slots, hfailed, ?_⟩
  rcases splitTrans_cases s with ⟨s2, e, -⟩ | ⟨s2, e, hs⟩ <;> rw [hraised] at e <;> cases e
  rw [exec_step_of_active hrun, pixStep_of_due hdue ht, hs, Res.bind_raised, Res.state_raised]

/-! ### What a fetch answers -/

/-- HDEC answers no symbol but a code of the table held (41_huffman.md R145). -/
theorem exists_code_of_hdec (hT : HoldsTable table s) {sym : Symbol} {s1 : State} (h : hdec s = .ok sym s1) :
    ∃ k < (tableLengths table).length, sym = ⟨codeLength table k, codeword table k, codePayload table k⟩ := by
  rcases Nat.lt_or_ge (peek (tableMaxLen table) s) (tableFill table) with hlt | hge
  · obtain ⟨k, hk, hin⟩ := exists_inCode hlt
    rw [← hdecFlat_eq_hdec_of_inCode hT hk hin, hdecFlat_of_inCode hT hk hin] at h
    split at h <;> cases h
    exact ⟨k, hk, rfl⟩
  · rw [← hdecFlat_eq_hdec_of_fill_le hT hge, hdecFlat_of_fill_le hT hge] at h
    split at h <;> cases h

theorem rdbitsFrom_lt (n v : Nat) {s s1 : State} {w : Nat} (h : rdbitsFrom n v s = .ok w s1) :
    w < (v + 1) * 2 ^ n := by
  induction n generalizing v s with
  | zero =>
    cases h
    omega
  | succ n ih =>
    obtain ⟨b, s2, -, hrest⟩ := Res.bind_eq_ok.mp h
    have hb := b.toNat_le
    calc w < (2 * v + b.toNat + 1) * 2 ^ n := ih _ hrest
      _ ≤ ((v + 1) * 2) * 2 ^ n := Nat.mul_le_mul_right _ (by omega)
      _ = (v + 1) * 2 ^ (n + 1) := by ring

/-- RDBITS(n) answers `n` bits (40_bitreader.md R123). -/
theorem rdbits_lt {n w : Nat} {s1 : State} (h : rdbits n s = .ok w s1) : w < 2 ^ n := by
  simpa using rdbitsFrom_lt n 0 h

/-- A fetched record is a code of the table held with the raw field its payload asks for (43_predictive.md R191, R192). -/
theorem exists_code_of_fetchRecord (hT : HoldsTable table s) {r : Record} {s1 : State} (h : fetchRecord s = .ok r s1) :
    ∃ k < (tableLengths table).length, ∃ raw < 2 ^ payloadRawBits (codePayload table k),
      r = ⟨codeLength table k, codeword table k, codePayload table k, raw⟩ := by
  obtain ⟨sym, s2, hhdec, hraw⟩ := Res.bind_eq_ok.mp h
  obtain ⟨raw, s3, hbits, hr⟩ := Res.bind_eq_ok.mp hraw
  obtain ⟨k, hk, rfl⟩ := exists_code_of_hdec hT hhdec
  cases hr
  exact ⟨k, hk, raw, rdbits_lt hbits, rfl⟩

/-! ### The instruction of a record -/

/-- The instruction `i` is well-formed and executes a record with this payload and raw field. -/
def RunsRecord (i : Instr) (payload : Byte) (raw : Nat) : Prop :=
  i.wf = true ∧ ∀ s, exec i s = execRecord (payloadLen payload) (payloadShl payload) raw s

@[simp] theorem payloadRawBits_zero : payloadRawBits 0 = 0 := rfl

/-- The arm of `exec` for each codeword row names the row's payload, and its raw field has the payload's width
(30_encoding.md R108; PRESUMED, log entry 6). -/
theorem runsRecord_row (t raw : Nat) :
    ∀ r ∈ codeRows t, RunsRecord (r.make raw) r.payload (raw % 2 ^ payloadRawBits r.payload) := by
  unfold codeRows
  split
  case h_7 => exact fun r hr => absurd hr List.not_mem_nil
  all_goals
    simp only [codeRows0, codeRows1, codeRows2, codeRows3, codeRows4, codeRows5, List.forall_mem_cons, payloadRawBits_zero,
      Nat.pow_zero, Nat.mod_one, List.not_mem_nil, IsEmpty.forall_iff, implies_true, and_true]
    and_intros
    all_goals
      intros
      rfl

/-- The instruction that a code of a candidate table stands for (30_encoding.md R94, R108). -/
theorem codeInstr_of_mem {t : Nat} {r : CodeRow} (h : r ∈ codeRows t) (raw : Nat) :
    codeInstr t r.clen r.code raw = some (r.make raw) := by
  obtain ⟨before, after, hrows⟩ := List.append_of_mem h
  have hpair := codeRows_pairwise t
  rw [hrows, List.pairwise_append] at hpair
  obtain ⟨-, -, hbefore⟩ := hpair
  have hfind : (codeRows t).find? (fun a => a.clen == r.clen && a.code == r.code) = some r := by
    refine List.find?_eq_some_iff_append.mpr ⟨by simp, before, after, hrows, fun a ha => ?_⟩
    obtain ⟨-, hne⟩ := hbefore a ha r (List.mem_cons_self ..)
    by_cases hlen : a.clen = r.clen
    · rw [hlen, Nat.sub_self, Nat.pow_zero, Nat.div_one] at hne
      simp [hne.symm]
    · simp [hlen]
  rw [codeInstr, hfind, Option.map_some]

/-- The rows of a candidate table are its codes, in code order. -/
theorem codeRows_eq_codes (t : Fin 6) :
    (codeRows t.val).map (fun r => (r.clen, r.code, r.payload)) =
      (List.range (tableLengths candidateHrom[t]).length).map fun k =>
        (codeLength candidateHrom[t] k, codeword candidateHrom[t] k, codePayload candidateHrom[t] k) := by
  fin_cases t <;> rfl

/-- A code of a candidate table is some row's. -/
theorem exists_row_of_code {t : Nat} (ht : t < 6) (hk : k < (tableLengths candidateHrom[t]).length) :
    ∃ r ∈ codeRows t, r.clen = codeLength candidateHrom[t] k ∧ r.code = codeword candidateHrom[t] k ∧
      r.payload = codePayload candidateHrom[t] k := by
  have hrows := codeRows_eq_codes ⟨t, ht⟩
  simp only [Fin.getElem_fin] at hrows
  have hmem : (codeLength candidateHrom[t] k, codeword candidateHrom[t] k, codePayload candidateHrom[t] k) ∈
      (codeRows t).map fun r => (r.clen, r.code, r.payload) := by
    rw [hrows]
    exact List.mem_map_of_mem (List.mem_range.mpr hk)
  obtain ⟨r, hr, heq⟩ := List.mem_map.mp hmem
  exact ⟨r, hr, by simpa only [Prod.mk.injEq] using heq⟩

/-- A legal payload with its raw field stands for the instruction of its class (30_encoding.md R93). -/
theorem exists_class_of_legal {payload : Byte} {raw : Nat} (hlegal : payloadShl payload ≤ payloadLen payload)
    (hraw : raw < 2 ^ payloadRawBits payload) :
    ∃ i, classInstr payload raw = .ok i ∧ RunsRecord i payload raw := by
  have hlen : payloadLen payload ≤ 15 := Nat.le_of_lt_succ (Nat.mod_lt _ (by decide))
  by_cases h0 : payload = 0
  · subst h0
    obtain rfl : raw = 0 := Nat.lt_one_iff.mp hraw
    exact ⟨.pxZero, rfl, rfl, fun _ => rfl⟩
  by_cases hs : payloadShl payload = 0
  · have hpos : payloadLen payload ≠ 0 := fun hl => h0 (BitVec.eq_of_toNat_eq (by
      rw [payloadLen] at hl
      rw [payloadShl] at hs
      change payload.toNat = 0
      omega))
    refine ⟨.pxPlain (payloadLen payload) raw, by rw [classInstr, if_neg h0, if_pos hs], ?_, fun _ => by rw [hs]; rfl⟩
    rw [payloadRawBits, hs] at hraw
    exact wf_pxPlain.mpr ⟨Nat.one_le_iff_ne_zero.mpr hpos, hlen, hraw⟩
  · exact ⟨.pxScaled (payloadLen payload) (payloadShl payload) raw,
      by rw [classInstr, if_neg h0, if_neg hs, if_pos hlegal],
      wf_pxScaled.mpr ⟨Nat.one_le_iff_ne_zero.mpr hs, hlegal, hlen, hraw⟩, fun _ => rfl⟩

/-- A code of a table with its raw field stands for an instruction: its row's under a candidate table, its class's under any
other (R108). -/
theorem exists_recordInstr {t raw : Nat} (hb : Buildable table) (hk : k < (tableLengths table).length)
    (hraw : raw < 2 ^ payloadRawBits (codePayload table k)) :
    ∃ i, recordInstr table t (codeLength table k) (codeword table k) (codePayload table k) raw = some i ∧
      RunsRecord i (codePayload table k) raw := by
  obtain ⟨-, -, -, hlegal⟩ := hb
  by_cases hcand : candidateHrom[t]? = some table
  · rw [recordInstr, if_pos hcand]
    obtain ⟨ht, rfl⟩ := Vector.getElem?_eq_some_iff.mp hcand
    obtain ⟨r, hr, hlen, hcode, hpay⟩ := exists_row_of_code ht hk
    have hrun := runsRecord_row t raw r hr
    rw [hpay, Nat.mod_eq_of_lt hraw] at hrun
    exact ⟨r.make raw, by rw [← hlen, ← hcode]; exact codeInstr_of_mem hr raw, hrun⟩
  · obtain ⟨i, hi, hrun⟩ := exists_class_of_legal (hlegal k hk) hraw
    exact ⟨i, by rw [recordInstr, if_neg hcand, hi], hrun⟩

/-- The host's STEP, written while ACTIVE, is the command's execution (44_host_commands.md R242). -/
theorem step_of_stepWord {rest : List HostAccess} (hin : s.hostIn = .write 0 0x0700 :: rest) (hrun : s.run = .active) :
    step s = exec .step { s with hostIn := rest } := by
  have hf : ({ s with hostIn := rest } : State).run ≠ .fault := by simp [hrun]
  have hdecode : decodeCommand 0x0700 = .ok .step := decodeCommand_of_encode (i := .step) rfl rfl
  rw [step_write hin, hostWrite, if_neg hf, if_pos rfl, command, hdecode]

/-- Settles O14: the record fetched is a code of the table held, and its instruction executes it. -/
theorem stepRunsFetchedRecord : Obligations.StepRunsFetchedRecord := by
  intro s s1 rest r hin hrun hdue hT hfetch
  obtain ⟨k, hk, raw, hraw, rfl⟩ := exists_code_of_fetchRecord (s := { s with hostIn := rest }) hT hfetch
  obtain ⟨hb, -⟩ := hT
  obtain ⟨i, hi, hwf, hexec⟩ := exists_recordInstr (t := s.tsel.toNat) hb hk hraw
  refine ⟨i, hi, hwf, ?_⟩
  have hrun1 : s1.run = .active := (run_of_fetchRecord hfetch).trans hrun
  have hstep := exec_step_of_fetched (s := { s with hostIn := rest }) hrun hdue hfetch
  rw [step_of_stepWord hin hrun, hexec, execRecord_of_active hrun1]
  exact hstep

end Sys2Proof.Machine
end

section
/-! PROOFS. RUN (44_host_commands.md R243): each turn of the loop faults, ends the image or goes on to a later pixel, so that the
loop ends within its turns, and RUN is STEP and then RUN (43_predictive.md R206, 70_reset_and_hazards.md R313). -/

namespace Sys2Proof.Machine

variable {s t : State}

/-! ### The progress of a pixel step -/

/-- From the scan `a` a pixel step comes to a fault, to a later pixel, or to the end of the image (43_predictive.md R204). -/
def Progress (a : Scan) (t : State) : Prop :=
  t.run = .fault ∨ (t.run = .active ∧ a.place < t.scan.place) ∨ (t.run = .done ∧ t.row = a.height ∧ t.col = 0)

theorem advance_progress (hin : s.scan.Inside) (hrun : s.run = .active) : Progress s.scan (advance s) := by
  have hlt := place_lt_advance hin
  rcases advance_cases s with ⟨-, e⟩ | ⟨-, hend, e⟩ | ⟨-, -, e⟩ <;> rw [e] at hlt ⊢
  · exact .inr (.inl ⟨hrun, hlt⟩)
  · exact .inr (.inr ⟨rfl, hend, rfl⟩)
  · exact .inr (.inl ⟨hrun, hlt⟩)

/-- EMIT writes the raster alone, so the position it is passed from is the pixel's. -/
theorem advance_emit_progress (hin : s.scan.Inside) (hrun : s.run = .active) (v : Word) :
    Progress s.scan (advance (emit v s)) := by
  obtain ⟨events, hscan, -⟩ := emit_scan hin v
  have h := advance_progress (s := emit v s) (by rw [hscan]; exact hin) (by rw [emit_run, hrun])
  rwa [hscan] at h

theorem pixelRecord_progress (len shl raw : Nat) (hin : s.scan.Inside) (hrun : s.run = .active) :
    Progress s.scan (pixelRecord len shl raw s).state := by
  have hscan := predUpd_scan (residual len shl raw) s
  rcases pixelRecord_cases len shl raw s with ⟨-, e⟩ | ⟨-, -, e⟩ | ⟨v, -, -, e⟩ <;> rw [e]
  · exact .inl rfl
  · exact .inl rfl
  · rw [← hscan] at hin ⊢
    exact advance_emit_progress hin ((run_predUpd _ s).trans hrun) v

theorem pixBody_progress (hin : s.scan.Inside) (hrun : s.run = .active) : Progress s.scan (pixBody s).state := by
  have hscan := fetchRecord_scan s
  rw [pixBody]
  cases e : fetchRecord s with
  | ok r s1 =>
    rw [e, Res.state_ok] at hscan
    rw [← hscan] at hin ⊢
    exact pixelRecord_progress _ _ _ hin ((run_of_fetchRecord e).trans hrun)
  | raised s1 =>
    rcases fetchRecord_frame s with ⟨_, _, _, e'⟩ | ⟨_, _, _, -, e'⟩ <;> rw [e] at e' <;> cases e'
    exact .inl rfl

theorem run_of_splitTrans_ok {s1 : State} (h : splitTrans s = .ok () s1) : s1.run = s.run := by
  rcases splitTrans_cases s with ⟨s2, e, e'⟩ | ⟨s2, -, e'⟩ <;> rw [h] at e' <;> cases e'
  rcases hbuild_cases (s.tsel.toNat + 1) (brreset s) with ⟨_, _, e'⟩ | ⟨_, _, _, -, e'⟩ <;> rw [e] at e' <;> cases e'
  exact brreset_run s

theorem run_of_splitTrans_raised {s1 : State} (h : splitTrans s = .raised s1) : s1.run = .fault := by
  rcases splitTrans_cases s with ⟨s2, -, e'⟩ | ⟨s2, e, e'⟩ <;> rw [h] at e' <;> cases e'
  rcases hbuild_cases (s.tsel.toNat + 1) (brreset s) with ⟨_, _, e'⟩ | ⟨_, _, _, -, e'⟩ <;> rw [e] at e' <;> cases e'
  rfl

theorem pixStep_progress (hin : s.scan.Inside) (hrun : s.run = .active) (h : pixStep s = .ok t) :
    Progress s.scan t := by
  have hscan := splitTrans_scan s
  rcases pixStep_cases h with ⟨-, rfl⟩ | ⟨-, -, e | ⟨s1, e, rfl⟩⟩
  · exact pixBody_progress hin hrun
  · exact .inl (run_of_splitTrans_raised e)
  · rw [e, Res.state_ok] at hscan
    rw [← hscan] at hin ⊢
    exact pixBody_progress hin ((run_of_splitTrans_ok e).trans hrun)

/-- Where the invariant holds a pixel step answers a state: a split has a table to go to (43_predictive.md R203). -/
theorem exists_pixStep_of_invariant (h : Invariant s) (hrun : s.run = .active) : ∃ t, pixStep s = .ok t := by
  by_cases hdue : splitDue s = true
  · exact ⟨_, pixStep_of_due hdue ((h.active hrun).tsel_of_splitDue hdue).2⟩
  · exact ⟨_, pixStep_of_not_due (by simpa using hdue)⟩

/-! ### The run loop -/

/-- A decode that has ended: in FAULT, or in DONE at the end of an image of this height. -/
def Ended (height : Word) (t : State) : Prop :=
  t.run = .fault ∨ (t.run = .done ∧ t.row = height ∧ t.col = 0)

theorem Ended.not_active {height : Word} (h : Ended height t) : t.run ≠ .active := by
  rcases h with h | ⟨h, -⟩ <;> simp [h]

theorem height_of_pixStep (h : pixStep s = .ok t) : t.height = s.height := by
  rw [pixStep_decodeOnly h]

/-- Each turn goes on to a later place, and there are fewer places than `65536 * HEIGHT` (70_reset_and_hazards.md R313). -/
theorem runLoop_ends {n : Nat} (h : Invariant s) (hrun : s.run = .active)
    (hn : 65536 * s.height.toNat ≤ s.scan.place + n) : ∃ t, runLoop n s = .ok t ∧ Ended s.height t := by
  induction n generalizing s with
  | zero =>
    obtain ⟨hrow, -⟩ := (h.active hrun).inside
    have hcol := s.col.isLt
    simp only [Scan.place, State.scan] at hn hrow
    omega
  | succ n ih =>
    obtain ⟨u, hu⟩ := exists_pixStep_of_invariant h hrun
    have hheight := height_of_pixStep hu
    rw [runLoop_active hrun hu, ← hheight]
    rcases pixStep_progress (h.active hrun).inside hrun hu with hf | ⟨ha, hplace⟩ | ⟨hd, hend⟩
    · exact ⟨u, runLoop_inactive (by simp [hf]), .inl hf⟩
    · exact ih (pixStep_invariant h hrun hu) ha (by rw [hheight]; omega)
    · exact ⟨u, runLoop_inactive (by simp [hd]), .inr ⟨hd, by rw [hheight]; exact hend⟩⟩

/-- More turns change nothing once the loop has ended. -/
theorem runLoop_of_le {n m : Nat} (h : runLoop n s = .ok t) (ht : t.run ≠ .active) (hnm : n ≤ m) :
    runLoop m s = .ok t := by
  induction n generalizing s m with
  | zero =>
    cases h
    exact runLoop_inactive ht
  | succ n ih =>
    obtain ⟨k, rfl⟩ := Nat.exists_eq_add_of_le' (Nat.one_le_of_lt hnm)
    by_cases hrun : s.run = .active
    · cases hp : pixStep s with
      | ok u =>
        rw [runLoop_active hrun hp] at h ⊢
        exact ih h (Nat.le_of_succ_le_succ hnm)
      | error f =>
        rw [runLoop_stop hrun hp] at h
        cases h
    · rw [runLoop_inactive hrun] at h ⊢
      exact h

/-- Settles O29: RUN has more turns than any image has places. -/
theorem runEndsTheDecode : Obligations.RunEndsTheDecode := by
  intro s hinv hrun
  have hheight := s.height.isLt
  obtain ⟨t, ht, hend⟩ := runLoop_ends (n := runFuel) ((inv_iff s).mp hinv) hrun (by rw [runFuel]; omega)
  exact ⟨t, (exec_run_of_active hrun).mpr ht, hend⟩

/-- Settles O28: the first turn of RUN's loop is the STEP, and from there one turn fewer ends at the same state. -/
theorem runIsStepThenRun : Obligations.RunIsStepThenRun := by
  intro s t hinv hrun hstep
  have h := (inv_iff s).mp hinv
  have ht := (exec_step_of_active hrun).mp hstep
  have hloop : runLoop runFuel s = runLoop (2 ^ 32 - 1) t := by
    rw [show runFuel = 2 ^ 32 - 1 + 1 from rfl, runLoop_active hrun ht]
  refine ⟨fun hactive => ?_, fun hnot => ?_⟩
  · have hheight := t.height.isLt
    obtain ⟨u, hu, hend⟩ := runLoop_ends (n := 2 ^ 32 - 1) (pixStep_invariant h hrun ht) hactive (by omega)
    rw [(exec_run_of_active hrun).mpr (hloop.trans hu),
      (exec_run_of_active hactive).mpr (runLoop_of_le hu hend.not_active (by rw [runFuel]; omega))]
  · exact (exec_run_of_active hrun).mpr (hloop.trans (runLoop_inactive hnot))

end Sys2Proof.Machine
end

section
/-! PROOFS. RUN over residuals that are all zero (43_predictive.md R209 f): the state before each pixel of the image, written out,
and the pixel step from each to the next. -/

namespace Sys2Proof.Machine

variable {s : State} {r c : Nat}

/-! ### The state before the pixel at row `r`, column `c` -/

/-- The vertical lane of the pixel's parities. -/
def imageLane (s : State) (r c : Nat) : Word := s.vpred (decide (r % 2 = 1)) (decide (c % 2 = 1))

def imageEvent (s : State) (r c : Nat) : RasterEvent := ⟨BitVec.ofNat 16 r, BitVec.ofNat 16 c, imageLane s r c⟩

def imageRow (s : State) (r : Nat) : List RasterEvent := (List.range s.raww.toNat).map (imageEvent s r)

/-- HPRED[0]: the lane of the last row in which column 0 is passed. -/
def evenLane (s : State) (r c : Nat) : Word :=
  if c = 0 then (if r = 0 then s.hpred0 else imageLane s (r - 1) 0) else imageLane s r 0

/-- HPRED[1]: the lane of the last row in which column 1 is passed, if there is a column 1. -/
def oddLane (s : State) (r c : Nat) : Word :=
  if c ≤ 1 then (if r = 0 ∨ s.raww.toNat ≤ 1 then s.hpred1 else imageLane s (r - 1) 1) else imageLane s r 1

/-- The state before the pixel at row `r` and column `c` of a decode from `s` in which each pixel takes one bit and shows the
vertical lane of its parities. -/
def imageAt (s : State) (r c : Nat) : State :=
  { s.setBitPos (r * s.raww.toNat + c) with
    hpred0 := evenLane s r c
    hpred1 := oddLane s r c
    row := BitVec.ofNat 16 r
    col := BitVec.ofNat 16 c
    run := if r = s.height.toNat then .done else s.run
    raster := s.raster ++ ((List.range r).flatMap (imageRow s) ++ (List.range c).map (imageEvent s r)) }

/-! ### The lanes from pixel to pixel -/

theorem imageLane_of_even (h : c % 2 = 0) (r : Nat) : imageLane s r c = imageLane s r 0 := by
  simp [imageLane, h]

theorem imageLane_of_odd (h : c % 2 = 1) (r : Nat) : imageLane s r c = imageLane s r 1 := by
  simp [imageLane, h]

theorem evenLane_next_col : evenLane s r (c + 1) = if c % 2 = 0 then imageLane s r c else evenLane s r c := by
  rw [evenLane, if_neg c.succ_ne_zero]
  split
  · rename_i h
    rw [imageLane_of_even h]
  · rw [evenLane, if_neg (by omega)]

theorem evenLane_next_row : evenLane s (r + 1) 0 = if c % 2 = 0 then imageLane s r c else evenLane s r c := by
  rw [← evenLane_next_col]
  simp [evenLane]

theorem oddLane_next_col : oddLane s r (c + 1) = if c % 2 = 1 then imageLane s r c else oddLane s r c := by
  split
  · rename_i h
    rw [oddLane, if_neg (by omega), imageLane_of_odd h]
  · rename_i h
    rcases Nat.eq_zero_or_pos c with rfl | hpos
    · simp [oddLane]
    · rw [oddLane, oddLane, if_neg (by omega), if_neg (by omega)]

theorem oddLane_next_row (hc : c + 1 = s.raww.toNat) :
    oddLane s (r + 1) 0 = if c % 2 = 1 then imageLane s r c else oddLane s r c := by
  rw [← oddLane_next_col]
  rcases Nat.eq_zero_or_pos c with rfl | hpos
  · simp [oddLane, ← hc]
  · have hw : ¬ s.raww.toNat ≤ 1 := by omega
    have hcol : ¬ c + 1 ≤ 1 := by omega
    simp [oddLane, hw, hcol]

/-- A pixel is predicted from the vertical lane of its parities, straight or through the horizontal lane (R196, R197). -/
theorem pixelLane_imageAt (hc : c < 65536) (hr : r < 65536) (p : Nat) :
    pixelLane ((imageAt s r c).setBitPos p) = imageLane s r c := by
  have hcol : (BitVec.ofNat 16 c).toNat = c := by rw [BitVec.toNat_ofNat, Nat.mod_eq_of_lt hc]
  have hrow : (BitVec.ofNat 16 r).toNat = r := by rw [BitVec.toNat_ofNat, Nat.mod_eq_of_lt hr]
  change (if (BitVec.ofNat 16 c).toNat < 2 then
      s.vpred (decide ((BitVec.ofNat 16 r).toNat % 2 = 1)) (decide ((BitVec.ofNat 16 c).toNat = 1))
    else (imageAt s r c).hpred (decide ((BitVec.ofNat 16 c).toNat % 2 = 1))) = _
  rw [hcol, hrow]
  split
  · have h01 : c = 0 ∨ c = 1 := by omega
    rcases h01 with rfl | rfl <;> rfl
  · rcases Nat.mod_two_eq_zero_or_one c with h | h
    · have h0 : c ≠ 0 := by omega
      rw [imageLane_of_even h]
      simp [h, State.hpred, imageAt, evenLane, h0]
    · have h1 : ¬ c ≤ 1 := by omega
      rw [imageLane_of_odd h]
      simp [h, State.hpred, imageAt, oddLane, h1]

/-- A vertical lane that is written with its own value stays, so a pixel writes the horizontal lane of its column alone. -/
theorem pixelLanes_imageAt (hc : c < 65536) (hr : r < 65536) (p : Nat) :
    pixelLanes (imageLane s r c) ((imageAt s r c).setBitPos p) =
      { (imageAt s r c).setBitPos p with
        hpred0 := if c % 2 = 0 then imageLane s r c else evenLane s r c
        hpred1 := if c % 2 = 1 then imageLane s r c else oddLane s r c } := by
  have hcol : (BitVec.ofNat 16 c).toNat = c := by rw [BitVec.toNat_ofNat, Nat.mod_eq_of_lt hc]
  have hrow : (BitVec.ofNat 16 r).toNat = r := by rw [BitVec.toNat_ofNat, Nat.mod_eq_of_lt hr]
  have h00 : (if c = 0 ∧ r % 2 = 0 then imageLane s r c else s.vpred00) = s.vpred00 :=
    ite_eq_right_iff.mpr fun ⟨hc, hr⟩ => by simp [imageLane, hc, hr, State.vpred]
  have h01 : (if c = 1 ∧ r % 2 = 0 then imageLane s r c else s.vpred01) = s.vpred01 :=
    ite_eq_right_iff.mpr fun ⟨hc, hr⟩ => by simp [imageLane, hc, hr, State.vpred]
  have h10 : (if c = 0 ∧ r % 2 = 1 then imageLane s r c else s.vpred10) = s.vpred10 :=
    ite_eq_right_iff.mpr fun ⟨hc, hr⟩ => by simp [imageLane, hc, hr, State.vpred]
  have h11 : (if c = 1 ∧ r % 2 = 1 then imageLane s r c else s.vpred11) = s.vpred11 :=
    ite_eq_right_iff.mpr fun ⟨hc, hr⟩ => by simp [imageLane, hc, hr, State.vpred]
  simp only [pixelLanes, imageAt, State.setBitPos, State.setBp, hcol, hrow, h00, h01, h10, h11]

/-! ### The pixel step from each to the next -/

/-- The premises of R209 f that a decode keeps: no split, no margin, the whole row visible, slot 0 a code of length 1 with
payload 0, enough 0 bits in DATA, and the curve the identity at the four vertical lanes. -/
structure ZeroImage (s : State) : Prop where
  run : s.run = .active
  split : s.split = 0
  minReg : s.minReg = 0
  lmargin : s.lmargin = 0
  visw : s.visw = s.raww
  maxlen : 1 ≤ s.maxlen.toNat
  fill : 1 ≤ s.fill.toNat
  slot : storeGet s.hslot 0 = some ⟨1, 0⟩
  srclen : s.height.toNat * s.raww.toNat ≤ 8 * s.srclen.toNat
  bits : ∀ p < s.height.toNat * s.raww.toNat, dataBit s (p / 8) (p % 8) = false
  lanes : ∀ r c, (s.vpred r c).toNat < s.maxReg.toNat ∧ (s.vpred r c).toNat ≤ 0x3fff ∧
    storeGet s.curve (s.vpred r c).toNat = some (s.vpred r c)

/-- With slot 0 a code of length 1 and payload 0, a 0 bit is a whole record (41_huffman.md R145). -/
theorem fetchRecord_of_zero_bit {u : State} (hleft : 0 < bitsLeft u) (hmaxlen : 1 ≤ u.maxlen.toNat)
    (hfill : 1 ≤ u.fill.toNat) (hslot : storeGet u.hslot 0 = some ⟨1, 0⟩)
    (hbit : dataBit u (bitPos u / 8) (bitPos u % 8) = false) :
    fetchRecord u = .ok ⟨1, 0, 0, 0⟩ (u.setBitPos (bitPos u + 1)) := by
  obtain ⟨m, hm⟩ := Nat.exists_eq_add_of_le' hmaxlen
  have hhdec : hdec u = .ok ⟨1, 0, 0⟩ (u.setBitPos (bitPos u + 1)) := by
    rw [hdec, hm, hdecFrom, rdbit_of_left hleft, hbit, Res.bind_ok]
    have hopen : ¬ u.fill.toNat ≤ 0 := by omega
    simp [hopen, hslot]
  rw [fetchRecord, hhdec, Res.bind_ok]
  rfl

theorem curveIndex_of_le {p : Word} (h : p.toNat ≤ 0x3fff) : curveIndex p = p.toNat := by
  rw [curveIndex, BitVec.toInt_eq_toNat_of_lt (by omega), Int.toNat_natCast, Nat.min_eq_left h]

theorem ofNat_add_one (n : Nat) : BitVec.ofNat 16 n + 1 = BitVec.ofNat 16 (n + 1) := (BitVec.ofNat_add n 1).symm

/-- The pixel shows its lane and passes to the next column, the next row, or the end. -/
theorem pixelResult_imageAt (h : ZeroImage s) (hr : r < s.height.toNat) (hc : c < s.raww.toNat) :
    pixelResult (imageLane s r c) (imageLane s r c) ((imageAt s r c).setBitPos (r * s.raww.toNat + c + 1)) =
      if c + 1 < s.raww.toNat then imageAt s r (c + 1) else imageAt s (r + 1) 0 := by
  have hc16 : c < 65536 := hc.trans s.raww.isLt
  have hr16 : r < 65536 := hr.trans s.height.isLt
  have hcol : (BitVec.ofNat 16 c).toNat = c := by rw [BitVec.toNat_ofNat, Nat.mod_eq_of_lt hc16]
  have hwindow : (0 : Word).toNat ≤ c ∧ c - (0 : Word).toNat < s.raww.toNat := ⟨Nat.zero_le c, hc⟩
  have hvcol : BitVec.ofNat 16 c - (0 : Word) = BitVec.ofNat 16 c := BitVec.sub_zero _
  rw [pixelResult, pixelLanes_imageAt hc16 hr16]
  by_cases hnext : c + 1 < s.raww.toNat
  · simp only [imageAt, State.setBitPos, State.setBp, hcol, h.lmargin, h.visw, hnext, if_true, evenLane_next_col,
      oddLane_next_col, if_pos hwindow, ofNat_add_one, List.range_succ, List.map_append, List.map_singleton, imageEvent,
      List.append_assoc, hvcol, Nat.add_assoc]
  · have hw : c + 1 = s.raww.toNat := by omega
    have hend : BitVec.ofNat 16 (r + 1) = s.height ↔ r + 1 = s.height.toNat := by
      rw [← BitVec.toNat_inj, BitVec.toNat_ofNat, Nat.mod_eq_of_lt (by have := s.height.isLt; omega)]
    have hplace : r * s.raww.toNat + c + 1 = (r + 1) * s.raww.toNat + 0 := by rw [Nat.succ_mul, ← hw]; rfl
    have hraster : (List.range (r + 1)).flatMap (imageRow s) =
        (List.range r).flatMap (imageRow s) ++ ((List.range c).map (imageEvent s r) ++ [imageEvent s r c]) := by
      simp [List.range_succ, imageRow, ← hw]
    simp only [imageAt, State.setBitPos, State.setBp, hcol, h.lmargin, h.visw, hnext, if_false, evenLane_next_row (c := c),
      oddLane_next_row hw, if_pos hwindow, ofNat_add_one, hend, hplace, hraster, hr.ne, imageEvent, List.append_assoc,
      hvcol, List.range_zero, List.map_nil, List.append_nil]
    rfl

/-- The pixel step at row `r` and column `c`: a 0 bit is fetched, its residual is 0, and the lane lies inside the bounds and on
the identity of the curve. -/
theorem pixStep_imageAt (h : ZeroImage s) (hr : r < s.height.toNat) (hc : c < s.raww.toNat) :
    pixStep (imageAt s r c) = .ok (if c + 1 < s.raww.toNat then imageAt s r (c + 1) else imageAt s (r + 1) 0) := by
  have hc16 : c < 65536 := hc.trans s.raww.isLt
  have hr16 : r < 65536 := hr.trans s.height.isLt
  have hplace : r * s.raww.toNat + c < s.height.toNat * s.raww.toNat := by
    have := Nat.mul_le_mul_right s.raww.toNat hr
    rw [Nat.succ_mul] at this
    omega
  have hbp : bitPos (imageAt s r c) = r * s.raww.toNat + c :=
    bitPos_setBitPos s (by have := h.srclen; omega)
  have hleft : 0 < bitsLeft (imageAt s r c) := by
    rw [bitsLeft, hbp]
    exact Nat.sub_pos_of_lt (hplace.trans_le h.srclen)
  have hbit : dataBit (imageAt s r c) (bitPos (imageAt s r c) / 8) (bitPos (imageAt s r c) % 8) = false := by
    rw [hbp]
    exact h.bits _ hplace
  have hpred : pixelPred (residual 0 0 0) ((imageAt s r c).setBitPos (r * s.raww.toNat + c + 1)) = imageLane s r c := by
    rw [pixelPred, pixelLane_imageAt hc16 hr16, residual_zero, Int.add_zero, BitVec.ofInt_natCast, BitVec.ofNat_toNat,
      BitVec.setWidth_eq]
  obtain ⟨hmax, hindex, hcurve⟩ := h.lanes (decide (r % 2 = 1)) (decide (c % 2 = 1))
  have hin : (imageLane s r c + s.minReg).toNat < s.maxReg.toNat := by
    rw [h.minReg]
    exact (congrArg BitVec.toNat (BitVec.add_zero _)).trans_lt hmax
  have hv : storeGet s.curve (curveIndex (imageLane s r c)) = some (imageLane s r c) := by
    rw [imageLane, curveIndex_of_le hindex, hcurve]
  have hdue : splitDue (imageAt s r c) = false := by
    simp [splitDue, imageAt, h.split]
  rw [pixStep_of_not_due hdue, pixBody, fetchRecord_of_zero_bit hleft h.maxlen h.fill h.slot hbit, Res.bind_ok, hbp,
    ← pixelResult_imageAt h hr hc]
  exact congrArg (fun u => Except.ok u.state) (pixelRecord_of_written (shl := 0) (len := 0) (raw := 0) hpred hin hv)

/-! ### The whole image -/

theorem run_imageAt (h : ZeroImage s) (hr : r < s.height.toNat) : (imageAt s r c).run = .active :=
  (if_neg hr.ne).trans h.run

/-- From a pixel of the image with `n` pixels to go the run loop comes to its end. -/
theorem runLoop_imageAt (h : ZeroImage s) {n : Nat} (hr : r < s.height.toNat) (hc : c < s.raww.toNat)
    (hn : r * s.raww.toNat + c + n = s.height.toNat * s.raww.toNat) :
    runLoop n (imageAt s r c) = .ok (imageAt s s.height.toNat 0) := by
  induction n generalizing r c with
  | zero =>
    have hrows := Nat.mul_le_mul_right s.raww.toNat hr
    rw [Nat.succ_mul] at hrows
    omega
  | succ n ih =>
    rw [runLoop_active (run_imageAt h hr) (pixStep_imageAt h hr hc)]
    by_cases hnext : c + 1 < s.raww.toNat
    · rw [if_pos hnext]
      exact ih hr hnext (by omega)
    · have hn' : (r + 1) * s.raww.toNat + n = s.height.toNat * s.raww.toNat := by
        rw [Nat.succ_mul]
        omega
      rw [if_neg hnext]
      rcases Nat.lt_or_ge (r + 1) s.height.toNat with hlt | hge
      · exact ih hlt (by omega) hn'
      · have hlast : r + 1 = s.height.toNat := Nat.le_antisymm hr hge
        rw [hlast] at hn' ⊢
        obtain rfl : n = 0 := by omega
        rfl

/-- Before the first pixel. -/
theorem imageAt_zero (hrow : s.row = 0) (hcol : s.col = 0) (hbyte : s.bpByte = 0) (hbit : s.bpBit = 0)
    (hheight : 0 < s.height.toNat) : imageAt s 0 0 = s := by
  cases s
  dsimp only at hrow hcol hbyte hbit
  subst hrow hcol hbyte hbit
  simp [imageAt, evenLane, oddLane, hheight.ne, State.setBitPos, State.setBp]

/-- Settles O30: the decode goes from before the first pixel to after the last. -/
theorem zeroResidualImage : Obligations.ZeroResidualImage := by
  intro s hrun hrow hcol hsplit hbyte hbit hmin hmargin hvis hheight hraww hmaxlen hfill hslot hsrc hbits hlanes
  have h : ZeroImage s := ⟨hrun, hsplit, hmin, hmargin, hvis, hmaxlen, hfill, hslot, hsrc, hbits, hlanes⟩
  have hloop := runLoop_imageAt h (n := s.height.toNat * s.raww.toNat) hheight hraww (by omega)
  rw [imageAt_zero hrow hcol hbyte hbit hheight] at hloop
  have hfuel : s.height.toNat * s.raww.toNat ≤ runFuel :=
    (Nat.mul_le_mul s.height.isLt.le s.raww.isLt.le).trans (by decide)
  have hdone : (imageAt s s.height.toNat 0).run = .done := if_pos rfl
  refine ⟨_, (exec_run_of_active hrun).mpr (runLoop_of_le hloop (by simp [hdone]) hfuel), ?_, ?_, ?_, ?_⟩
  · exact bitPos_setBitPos s (by omega)
  · exact if_neg hheight.ne'
  · change oddLane s s.height.toNat 0 = _
    by_cases hw : 2 ≤ s.raww.toNat
    · simp [oddLane, hheight.ne', Nat.not_le.mpr hw, hw, imageLane]
    · simp [oddLane, Nat.le_of_lt_succ (Nat.not_le.mp hw), hw]
  · have hend : BitVec.ofNat 16 s.height.toNat = s.height := by rw [BitVec.ofNat_toNat, BitVec.setWidth_eq]
    conv_lhs => rw [imageAt, hend, if_pos rfl, List.range_zero, List.map_nil, List.append_nil]
    rfl

end Sys2Proof.Machine
end

section
/-! PROOFS. The statements of 44_host_commands.md about the run of a command: what FAULT ignores, the gate (R240), the command
word (R233), NOP, RDB and START, and what a step while ACTIVE leaves of the configuration (R230). -/

namespace Sys2Proof.Machine

variable {s : State}

/-! ### The two commands with an argument, behind their gate -/

theorem exec_hbld_eq_gate {n : Byte} (hf : s.run ≠ .fault) (hn : n.toNat ≤ 5) :
    exec (.hbld n) s = gate allowIdle s (.next (hbuild n.toNat s).state) := by
  change execHbld n s = _
  rw [execHbld, if_neg hf, if_neg (Nat.not_lt.mpr hn)]

theorem exec_rdb_eq_gate {n : Byte} (hf : s.run ≠ .fault) (hn : n.toNat ≤ 16) :
    exec (.rdb n) s = gate allowIdleActive s
      (.next ((rdbits n.toNat s).bind fun v s1 => .ok () { s1 with result := BitVec.ofNat 16 v }).state) := by
  change execRdb n s = _
  rw [execRdb, if_neg hf, if_neg (Nat.not_lt.mpr hn)]

/-! ### NOP, and what FAULT ignores -/

/-- Settles O45: in FAULT the gate ignores it, elsewhere it lets it through. -/
theorem nopDoesNothing : Obligations.NopDoesNothing := by
  intro s
  change gate allowAny s (.next s) = .next s
  by_cases hf : s.run = .fault
  · exact gate_fault hf
  · have hallow : allowAny s.run = true := by
      cases hr : s.run with
      | fault => exact absurd hr hf
      | idle | active | done => rfl
    exact gate_allowed hf hallow

/-- In FAULT the gate of every command but RESET, and that of every pixel record, ignores it (R240). -/
theorem exec_of_fault {i : Instr} (hf : s.run = .fault) (hi : i ≠ .reset) : exec i s = .next s := by
  cases i with
  | reset => exact absurd rfl hi
  | hbld n => exact if_pos hf
  | rdb n => exact if_pos hf
  | _ => exact gate_fault hf

/-- Settles O5: an instruction by its gate, a host write by the check that stands before its address. -/
theorem faultIgnoresAllButReset : Obligations.FaultIgnoresAllButReset := by
  refine ⟨fun i s hf hi => exec_of_fault hf hi, fun s addr v rest hf hin hw => ?_⟩
  rw [step_write hin, hostWrite, if_pos hf, if_neg hw]

/-! ### The command word -/

/-- Outside FAULT a write to CMD is the command of its word (R230, R233). -/
theorem step_command {w : Word} {rest : List HostAccess} (hin : s.hostIn = .write 0 w :: rest) (hf : s.run ≠ .fault) :
    step s = command w { s with hostIn := rest } := by
  rw [step_write hin, hostWrite, if_neg hf, if_pos rfl]

/-- Settles O13: a command word decodes, or is refused. -/
theorem stepRunsDecodedCommand : Obligations.StepRunsDecodedCommand := by
  intro s w rest hin hf
  rw [step_command hin hf]
  constructor
  · intro i hi
    rw [command, hi]
  · intro e he
    rw [command, he]

/-! ### The gating table -/

/-- Settles O46: each command by the states its gate allows, none of them the one it is run in. -/
theorem commandsRefusedByRunState : Obligations.CommandsRefusedByRunState := by
  refine ⟨fun s i hrun hi => ?_, fun s i hrun hi => ?_, fun s i hrun hi => ?_⟩
  · have hf : s.run ≠ .fault := by rcases hrun with h | h <;> simp [h]
    have hrefused : allowIdle s.run = false := by rcases hrun with h | h <;> rw [h] <;> rfl
    rcases hi with rfl | rfl | rfl | rfl | ⟨n, hn, rfl⟩
    case inr.inr.inr.inr => exact (exec_hbld_eq_gate hf hn).trans (gate_refused hf hrefused)
    all_goals exact gate_refused hf hrefused
  · have hf : s.run ≠ .fault := by rcases hrun with h | h <;> simp [h]
    have hrefused : allowActive s.run = false := by rcases hrun with h | h <;> rw [h] <;> rfl
    rcases hi with rfl | rfl | rfl | ⟨len, raw, rfl⟩ | ⟨len, shl, raw, rfl⟩
    all_goals exact gate_refused hf hrefused
  · have hf : s.run ≠ .fault := by simp [hrun]
    have hrefused : allowIdleActive s.run = false := by rw [hrun]; rfl
    rcases hi with rfl | rfl | ⟨n, hn, rfl⟩
    case inr.inr => exact (exec_rdb_eq_gate hf hn).trans (gate_refused hf hrefused)
    all_goals exact gate_refused hf hrefused

/-! ### RDB -/

/-- Settles O35: RDBITS with bits enough left, or short of them, put through the command. -/
theorem rdbReadsBits : Obligations.RdbReadsBits := by
  intro n s hn hrun
  have hf : s.run ≠ .fault := by rcases hrun with h | h <;> simp [h]
  rw [exec_rdb_eq_gate hf hn, gate_allowed hf (allowIdleActive_iff.mpr hrun)]
  constructor
  · intro hleft
    rw [rdbits_of_left hleft, Res.bind_ok, Res.state_ok]
  · intro hshort hle
    rw [rdbits_of_short hle hshort, Res.bind_raised, Res.state_raised]

/-! ### START -/

/-- START's three refusals, as the registers show them (R241). -/
theorem startRefused_iff : startRefused s = true ↔
    (s.bps ≠ 12 ∧ s.bps ≠ 14) ∨ (s.lossless = true ∧ s.split ≠ 0) ∨ 0x4001 < s.maxReg.toNat := by
  simp [startRefused, bpsLegal, or_assoc]

theorem startRefused_eq_false (hbps : s.bps = 12 ∨ s.bps = 14) (hsplit : s.lossless = false ∨ s.split = 0)
    (hmax : s.maxReg.toNat ≤ 0x4001) : startRefused s = false := by
  rw [← Bool.not_eq_true, startRefused_iff]
  rintro (⟨h12, h14⟩ | ⟨hloss, hne⟩ | hover)
  · exact hbps.elim h12 h14
  · exact hsplit.elim (by simp [hloss]) hne
  · exact Nat.not_lt.mpr hmax hover

/-- Settles O43: the table of the depth builds, and the rest of START follows the build. -/
theorem startBegins : Obligations.StartBegins := by
  intro s hrun hbps hsplit hmax t hb
  obtain ⟨slots, hok, hslots, hkeep⟩ := hbuild_of_buildable rfl hb
  refine ⟨slots, hslots, hkeep, ?_⟩
  rw [exec_start_of_idle hrun (startRefused_eq_false hbps hsplit hmax), startDecode, hok]
  rfl

/-! ### The configuration while ACTIVE -/

/-- The registers the host configures, the lengths, CADDR and the curve (10_state.md R30, R31, R35, R38). -/
def State.configuration (s : State) :=
  (s.bps, s.lossless, s.height, s.raww, s.visw, s.lmargin, s.split, s.csize, s.ver, s.vseed0, s.vseed1, s.vseed2,
    s.vseed3, s.srclen, s.metalen, s.caddr, s.curve)

/-- `t` is configured as `s` is. -/
def KeepsConfiguration (s t : State) : Prop := t.configuration = s.configuration

theorem DecodeOnly.keepsConfiguration {t : State} (h : DecodeOnly s t) : KeepsConfiguration s t := by
  rw [h]; rfl

theorem keepsConfiguration_decodeRelation : DecodeRelation KeepsConfiguration where
  refl _ := rfl
  trans h h' := Eq.trans h' h
  raise _ _ := rfl
  host _ _ _ _ := rfl
  result _ _ := rfl
  brst s := (brreset_decodeOnly s).keepsConfiguration
  rdb n s := (rdbits_decodeOnly n s).keepsConfiguration
  hdec s := (hdec_decodeOnly s).keepsConfiguration
  pixStep h := (pixStep_decodeOnly h).keepsConfiguration

/-- Settles O56: what a step while ACTIVE may do, the decoder does, and the configuration is not the decoder's. -/
theorem activeKeepsConfiguration : Obligations.ActiveKeepsConfiguration := by
  intro s t hrun hn h
  simpa only [KeepsConfiguration, State.configuration, Prod.mk.injEq] using
    keepsConfiguration_decodeRelation.of_step hrun hn h

end Sys2Proof.Machine
end

section
/-! PROOFS. The statements of 44_host_commands.md about the register bus (R230, R231): the register map of 10_state.md R30 as
read, what a host read leaves, and what a register write stores or refuses. -/

namespace Sys2Proof.Machine

variable {s : State}

/-! ### The register map as read -/

/-- The addresses that show a register other than CMD and CDATA (10_state.md R30). -/
def mapped : List Nat :=
  [0x01, 0x02, 0x03, 0x04, 0x05, 0x06, 0x07, 0x08, 0x09, 0x0A, 0x0B, 0x0C, 0x0D, 0x0E, 0x10, 0x11, 0x12, 0x13, 0x14, 0x15,
    0x16, 0x17, 0x18, 0x19, 0x1A, 0x1B, 0x1C, 0x1D, 0x1E, 0x1F, 0x20, 0x21, 0x22, 0x23, 0x24, 0x25, 0x26, 0x28]

/-- CMD, CDATA and the unmapped addresses show no register (R231). -/
theorem regRead_of_not_mapped {addr : Nat} (h : addr ∉ mapped) (s : State) : regRead addr s = 0 := by
  unfold regRead
  split
  case h_39 => rfl
  all_goals exact absurd (by decide) h

theorem low_half_eq (x : BitVec 32) : x.extractLsb' 0 16 = BitVec.ofNat 16 (x.toNat % 65536) := by
  apply BitVec.eq_of_toNat_eq
  simp [BitVec.extractLsb'_toNat]

theorem high_half_eq (x : BitVec 32) : x.extractLsb' 16 16 = BitVec.ofNat 16 (x.toNat / 65536) := by
  apply BitVec.eq_of_toNat_eq
  simp [BitVec.extractLsb'_toNat, Nat.shiftRight_eq_div_pow]

/-! ### A host read -/

/-- A read of CDATA where it shows an entry (10_state.md R35). -/
theorem serveRead_cdata_of_some {v : Word} (h : cdataEntry s = some v) :
    serveRead 0x29 s = { s with hostOut := s.hostOut ++ [v] } := by
  simp [serveRead, hostRead, h]

/-- A read of CDATA where it shows none counts one free value (10_state.md R35). -/
theorem serveRead_cdata_of_none (h : cdataEntry s = none) :
    serveRead 0x29 s = { s with hostOut := s.hostOut ++ [Config.freeRead s.draws], draws := s.draws + 1 } := by
  simp [serveRead, hostRead, h]

theorem serveRead_of_ne {addr : Nat} (h : addr ≠ 0x29) :
    serveRead addr s = { s with hostOut := s.hostOut ++ [regRead addr s] } := by
  simp [serveRead, hostRead, h]

theorem step_read {addr : Byte} {rest : List HostAccess} (hin : s.hostIn = .read addr :: rest) :
    step s = .next (serveRead addr.toNat { s with hostIn := rest }) := by
  simp [step, serve, hin]

theorem regRead_hostIn (addr : Nat) (s : State) (rest : List HostAccess) :
    regRead addr { s with hostIn := rest } = regRead addr s := rfl

theorem cdataEntry_eq_some {v : Word} (hc : s.caddr.toNat ≤ 16384) (hv : storeGet s.curve s.caddr.toNat = some v) :
    cdataEntry s = some v := by
  rw [cdataEntry, if_pos hc, hv]

theorem cdataEntry_eq_none (h : 16384 < s.caddr.toNat ∨ storeGet s.curve s.caddr.toNat = none) : cdataEntry s = none := by
  unfold cdataEntry
  split
  case isTrue hc => exact h.resolve_left (Nat.not_lt.mpr hc)
  case isFalse => rfl

theorem addr_toNat_ne {a b : Byte} (h : a ≠ b) : a.toNat ≠ b.toNat := fun he => h (BitVec.eq_of_toNat_eq he)

/-- Settles O49: the map entry by entry, and a read by what it shows. -/
theorem hostReadChangesNothing : Obligations.HostReadChangesNothing := by
  intro s low high map
  refine ⟨?_, fun addr _ hmap => ?_, fun addr rest hin => ?_⟩
  · simp only [map, low, high, ← low_half_eq, ← high_half_eq, BitVec.ofNat_toNat, List.forall_mem_cons,
      List.not_mem_nil, false_imp_iff, implies_true, and_true]
    and_intros <;> rfl
  · refine regRead_of_not_mapped (fun hmem => ?_) s
    have haddrs : map.map (fun e => e.1.toNat) = mapped := rfl
    obtain ⟨e, he, heq⟩ := List.mem_map.mp (haddrs ▸ hmem)
    exact hmap e he (BitVec.eq_of_toNat_eq heq)
  · rw [step_read hin]
    refine ⟨fun hne => ?_, fun v ha hc hv => ?_, fun ha hnone => ?_⟩
    · rw [serveRead_of_ne (addr_toNat_ne hne), regRead_hostIn]
    · subst ha
      exact congrArg _ (serveRead_cdata_of_some (s := { s with hostIn := rest }) (cdataEntry_eq_some hc hv))
    · subst ha
      exact ⟨_, congrArg _ (serveRead_cdata_of_none (s := { s with hostIn := rest }) (cdataEntry_eq_none hnone))⟩

/-! ### The refusals of a register write -/

theorem regWrite_of_not_writable {addr : Nat} (v : Word) (h : addr ∉ writable) : regWrite addr v s = s.raise .badAccess := by
  simp [regWrite, h]

theorem regWrite_of_idle {addr : Nat} (v : Word) (h : addr ∈ writable) (hc : addr ≠ 0x29) (hrun : s.run = .idle) :
    regWrite addr v s = regStore addr v s := by
  simp [regWrite, h, hc, hrun]

theorem regWrite_of_not_idle {addr : Nat} (v : Word) (h : addr ∈ writable) (hrun : s.run ≠ .idle) :
    regWrite addr v s = s.raise .badState := by
  simp [regWrite, h, hrun]

/-- Settles O50: the address is looked up before RUN (60_exceptions.md R272). -/
theorem registerWriteRefusals : Obligations.RegisterWriteRefusals := by
  intro s addr v rest hf ha hin readWrite
  have hwritable : addr.toNat ∈ writable ↔ addr ∈ readWrite := by
    have hmap : writable = readWrite.map BitVec.toNat := rfl
    rw [hmap]
    exact List.mem_map_of_injective fun a b => BitVec.eq_of_toNat_eq
  rw [step_regWrite hf ha hin]
  refine ⟨fun hnot => ?_, fun hmem hrun => ?_⟩
  · rw [regWrite_of_not_writable v (mt hwritable.mp hnot)]
  · exact congrArg _ (regWrite_of_not_idle (s := { s with hostIn := rest }) v (hwritable.mpr hmem) hrun)

/-! ### The store of a register write -/

/-- The store of a register write, register by register: each keeps its value unless the address is its own (R30, R230). -/
theorem regStore_eq (addr : Nat) (v : Word) (s : State) :
    regStore addr v s =
      { s with
        bps := if addr = 0x06 then v else s.bps
        lossless := if addr = 0x07 then v.getLsbD 0 else s.lossless
        height := if addr = 0x08 then v else s.height
        raww := if addr = 0x09 then v else s.raww
        visw := if addr = 0x0A then v else s.visw
        lmargin := if addr = 0x0B then v else s.lmargin
        split := if addr = 0x0C then v else s.split
        csize := if addr = 0x0D then v else s.csize
        ver := if addr = 0x0E then v else s.ver
        vseed0 := if addr = 0x10 then v else s.vseed0
        vseed1 := if addr = 0x11 then v else s.vseed1
        vseed2 := if addr = 0x12 then v else s.vseed2
        vseed3 := if addr = 0x13 then v else s.vseed3
        maxReg := if addr = 0x15 then v else s.maxReg
        srclen :=
          if addr = 0x23 then s.srclen.extractLsb' 16 16 ++ v
          else if addr = 0x24 then v ++ s.srclen.extractLsb' 0 16 else s.srclen
        metalen :=
          if addr = 0x25 then s.metalen.extractLsb' 16 16 ++ v
          else if addr = 0x26 then v ++ s.metalen.extractLsb' 0 16 else s.metalen
        caddr := if addr = 0x28 then v else s.caddr } := by
  unfold regStore
  split
  case h_20 => simp_all
  all_goals rfl

theorem low_half_append (hi lo : Word) : (hi ++ lo : BitVec 32).extractLsb' 0 16 = lo :=
  BitVec.extractLsb'_append_eq_right

theorem high_half_append (hi lo : Word) : (hi ++ lo : BitVec 32).extractLsb' 16 16 = hi :=
  BitVec.extractLsb'_append_eq_left

/-- A write of the high half leaves the low half (10_state.md R30). -/
theorem low_half_ite (p : Prop) [Decidable p] (x : BitVec 32) (v : Word) :
    (if p then v ++ x.extractLsb' 0 16 else x).extractLsb' 0 16 = x.extractLsb' 0 16 := by
  split
  · exact low_half_append _ _
  · rfl

/-- A write of the low half leaves the high half (10_state.md R30). -/
theorem high_half_ite (p : Prop) [Decidable p] (x : BitVec 32) (v : Word) :
    (if p then x.extractLsb' 16 16 ++ v else x).extractLsb' 16 16 = x.extractLsb' 16 16 := by
  split
  · exact high_half_append _ _
  · rfl

/-- FLAGS keeps bit 0 of what is written (R30). -/
theorem ofNat_getLsbD_zero (v : Word) : BitVec.ofNat 16 (v.getLsbD 0).toNat = v &&& 1 := by
  have hmod : (v.getLsbD 0).toNat = v.toNat % 2 := by
    rw [BitVec.getLsbD, Nat.testBit_zero]
    rcases Nat.mod_two_eq_zero_or_one v.toNat with h | h <;> simp [h]
  apply BitVec.eq_of_toNat_eq
  rw [hmod, BitVec.toNat_and, BitVec.toNat_ofNat]
  change _ = v.toNat &&& 1
  rw [Nat.and_one_is_mod]
  omega

/-- A register reads back as stored, FLAGS in bit 0 alone (R30, R230). -/
theorem regRead_regStore_same {addr : Nat} (v : Word) (hw : addr ∈ writable) (hc : addr ≠ 0x29) :
    regRead addr (regStore addr v s) = if addr = 0x07 then v &&& 1 else v := by
  unfold regStore
  split
  case h_2 => exact ofNat_getLsbD_zero v
  case h_15 | h_17 => exact low_half_append _ _
  case h_16 | h_18 => exact high_half_append _ _
  case h_20 => simp_all [writable]
  all_goals rfl

/-- A store leaves what every other address shows, the other half of a 32-bit register among them (R30). -/
theorem regRead_regStore_of_ne {addr b : Nat} (v : Word) (h : b ≠ addr) :
    regRead b (regStore addr v s) = regRead b s := by
  rw [regStore_eq]
  unfold regRead
  split
  all_goals simp [h.symm, statusWord, faultWord, low_half_ite, high_half_ite]

/-- CDATA shows the same entry while CADDR is not written (10_state.md R35). -/
theorem cdataEntry_regStore {addr : Nat} (v : Word) (h : addr ≠ 0x28) : cdataEntry (regStore addr v s) = cdataEntry s := by
  simp [regStore_eq, cdataEntry, h]

/-- Settles O47: the store touches the register of its address alone. -/
theorem registerWriteReadsBack : Obligations.RegisterWriteReadsBack := by
  intro s addr v rest hrun hin hmem
  have hw : addr.toNat ∈ writable := List.mem_of_mem_dropLast (List.mem_map_of_mem (f := BitVec.toNat) hmem)
  have hc : addr ≠ 0x29 := by rintro rfl; exact absurd hmem (by decide)
  have ha : addr ≠ 0 := by rintro rfl; exact absurd hmem (by decide)
  refine ⟨regStore addr.toNat v { s with hostIn := rest }, ?_, ?_, ?_, fun b hb _ => regRead_regStore_of_ne v hb, ?_, ?_⟩
  · rw [step_regWrite (by simp [hrun]) ha hin]
    exact congrArg _ (regWrite_of_idle (s := { s with hostIn := rest }) v hw (addr_toNat_ne hc) hrun)
  · rw [regStore_eq]
  · rw [regRead_regStore_same v hw (addr_toNat_ne hc)]
    exact if_congr (BitVec.toNat_inj (y := 0x07)) rfl rfl
  · exact fun h28 => cdataEntry_regStore v (addr_toNat_ne h28)
  · rw [regStore_eq]
    simp only [and_self]

end Sys2Proof.Machine
end

section
/-! PROOFS. The faults of the curve unit, each with what was written before it: the trim at the first entry it cannot read
(42_curve.md R173), the interpolation at the first index without an end point (R170), the samples cut off (R168, R169), and the
header's fields cut off (R165). -/

namespace Sys2Proof.Machine

variable {s t : State} {curve : List (Nat × Word)} {sample : Nat → Word} {step stride m n last : Nat}

theorem Res.bind_assoc {α β γ : Type} (r : Res α) (f : α → State → Res β) (g : β → State → Res γ) :
    (r.bind f).bind g = r.bind fun a s => (f a s).bind g := by
  cases r <;> rfl

/-! ### The trim -/

/-- Where the tail repeats, CTRIM cuts one entry off and goes on (R173). -/
theorem ctrimFrom_succ_of_repeats (n : Nat) (h : TailRepeats s.curve s.maxReg.toNat) :
    ctrimFrom (n + 1) s = ctrimFrom n { s with maxReg := s.maxReg - 1 } := by
  obtain ⟨hdiff, -⟩ | ⟨-, hturn⟩ | ⟨⟨-, hbad⟩, -⟩ := ctrimFrom_succ_cases n s
  · exact absurd h hdiff.not_repeats
  · exact hturn
  · obtain ⟨-, hle, a, ha, hb⟩ := h
    simp [ha, hb, Nat.not_lt.mpr hle] at hbad

/-- At length `m` one of the two entries the trim compares cannot be read (R162, R173). -/
def TailUnreadable (curve : List (Nat × Word)) (m : Nat) : Prop :=
  16384 < m - 1 ∨ storeGet curve (m - 1) = none ∨ storeGet curve (m - 2) = none

/-- Where an entry cannot be read, CTRIM faults (R173). -/
theorem ctrimFrom_succ_of_unreadable (n : Nat) (hm : 2 ≤ s.maxReg.toNat) (h : TailUnreadable s.curve s.maxReg.toNat) :
    ctrimFrom (n + 1) s = .raised (s.raise .curveUnwritten) := by
  have hnone : ∀ a b, storeGet s.curve (s.maxReg.toNat - 2) = some a → storeGet s.curve (s.maxReg.toNat - 1) = some b →
      s.maxReg.toNat ≤ 16385 → False := by
    intro a b ha hb hle
    rcases h with hover | hnone | hnone
    · omega
    · simp [hb] at hnone
    · simp [ha] at hnone
  obtain ⟨hlt | ⟨hle, a, b, -, ha, hb⟩, -⟩ | ⟨⟨-, hle, a, ha, hb⟩, -⟩ | ⟨-, hraised⟩ := ctrimFrom_succ_cases n s
  · omega
  · exact (hnone a b ha hb hle).elim
  · exact (hnone a a ha hb hle).elim
  · exact hraised

/-- CTRIM over a tail of equal entries faults at the first length at which an entry cannot be read, with that length in MAX
(R173). -/
theorem ctrimFrom_of_unreadable (hm : 2 ≤ m) (hle : m ≤ s.maxReg.toNat) (hn : s.maxReg.toNat ≤ n)
    (htail : ∀ j, m ≤ j → j < s.maxReg.toNat →
      j ≤ 16384 ∧ ∃ v, storeGet s.curve j = some v ∧ storeGet s.curve (m - 1) = some v)
    (h : TailUnreadable s.curve m) :
    ctrimFrom n s = .raised (({ s with maxReg := BitVec.ofNat 16 m } : State).raise .curveUnwritten) := by
  induction n generalizing s with
  | zero => omega
  | succ n ih =>
    rcases Nat.eq_or_lt_of_le hle with rfl | hlt
    · rw [ctrimFrom_succ_of_unreadable n hm h, maxReg_ofNat_toNat]
    · have hrepeats : TailRepeats s.curve s.maxReg.toNat := by
        obtain ⟨hin, v, hv, hlast⟩ := htail (s.maxReg.toNat - 1) (by omega) (by omega)
        refine ⟨by omega, by omega, v, ?_, hv⟩
        rcases Nat.eq_or_lt_of_le (Nat.le_sub_one_of_lt hlt) with heq | hlt'
        · rwa [show s.maxReg.toNat - 2 = m - 1 by omega]
        · obtain ⟨-, w, hw, hlast'⟩ := htail (s.maxReg.toNat - 2) (by omega) (by omega)
          rw [hw, ← hlast', hlast]
      have hcut := toNat_maxReg_sub_one hrepeats.1
      rw [ctrimFrom_succ_of_repeats n hrepeats]
      exact ih (s := { s with maxReg := s.maxReg - 1 }) (by simp only; omega) (by simp only; omega)
        (fun j hj hjm => htail j hj (by simp only at hjm; omega)) h

/-! ### The interpolation -/

/-- The end points of index `i` are there: the sample below it and, between two samples, the one above (R170). -/
def EndPoints (curve : List (Nat × Word)) (sample : Nat → Word) (step i : Nat) : Prop :=
  storeGet curve (i / step * step) = some (sample (i / step)) ∧
    (i % step ≠ 0 → (i / step + 1) * step ≤ 16384 ∧ storeGet curve ((i / step + 1) * step) = some (sample (i / step + 1)))

/-- An end point of index `i` cannot be read (R162, R170). -/
def EndPointMissing (curve : List (Nat × Word)) (step i : Nat) : Prop :=
  storeGet curve (i / step * step) = none ∨
    i % step ≠ 0 ∧ (16384 < (i / step + 1) * step ∨ storeGet curve ((i / step + 1) * step) = none)

theorem curveRead_of_missing {i : Nat} (h : 16384 < i ∨ storeGet s.curve i = none) :
    curveRead i s = .raised (s.raise .curveUnwritten) := by
  obtain ⟨v, hle, hv, -⟩ | ⟨-, hraised⟩ := curveRead_cases i s
  · simp [hv, Nat.not_lt.mpr hle] at h
  · exact hraised

/-- One index of INTERP faults where an end point cannot be read (R170). -/
theorem interpAt_of_missing {i : Nat} (h : EndPointMissing s.curve step i) :
    interpAt step i s = .raised (s.raise .curveUnwritten) := by
  have hbase : i - i % step = i / step * step := Nat.div_mul_self_eq_mod_sub_self.symm
  rw [interpAt, hbase]
  obtain ⟨v, -, hv, hread⟩ | ⟨-, hread⟩ := curveRead_cases (i / step * step) s <;> rw [hread]
  · obtain ⟨hrem, hnext⟩ := h.resolve_left (by simp [hv])
    rw [Res.bind_ok, if_neg hrem, ← Nat.succ_mul, curveRead_of_missing hnext, Res.bind_raised]
  · rw [Res.bind_raised]

theorem interpFrom_add (step a b i : Nat) (s : State) :
    interpFrom step (a + b) i s = (interpFrom step a i s).bind fun _ s1 => interpFrom step b (i + a) s1 := by
  induction a generalizing i s with
  | zero => rw [Nat.zero_add]; rfl
  | succ a ih =>
    rw [Nat.add_right_comm, interpFrom, interpFrom, Res.bind_assoc]
    simp only [ih, Nat.add_assoc, Nat.add_comm 1 a]

/-- INTERP faults at the first index without an end point, and leaves what the indices before it left (R170). -/
theorem interp_of_missing (hpre : interpFrom (m / (n - 1)) last 0 s = .ok () t) (hlast : last < m)
    (h : EndPointMissing t.curve (m / (n - 1)) last) : interp m n s = .raised (t.raise .curveUnwritten) := by
  obtain ⟨c, rfl⟩ : ∃ c, m = last + (c + 1) := ⟨m - last - 1, by omega⟩
  rw [interp, interpFrom_add, hpre, Res.bind_ok, Nat.zero_add, interpFrom, interpAt_of_missing h, Res.bind_raised,
    Res.bind_raised]

/-- The end points of the indices up to `e` are samples at the multiples of the step, the last one not below `e`. -/
theorem exists_sampled_of_endPoints {e : Nat} (hstep : 1 ≤ step) (he : e ≤ 16384) (h : ∀ i ≤ e, EndPoints curve sample step i) :
    ∃ n, 1 ≤ n ∧ (n - 1) * step ≤ 16384 ∧ e ≤ (n - 1) * step ∧ Sampled curve sample step n := by
  have hbase : ∀ k ≤ e / step, storeGet curve (k * step) = some (sample k) := by
    intro k hk
    obtain ⟨hget, -⟩ := h (k * step) ((Nat.mul_le_mul_right step hk).trans (Nat.div_mul_le_self e step))
    rwa [Nat.mul_div_cancel k hstep] at hget
  by_cases hrem : e % step = 0
  · have heq : e / step * step = e := Nat.div_mul_cancel (Nat.dvd_of_mod_eq_zero hrem)
    exact ⟨e / step + 1, Nat.le_add_left _ _, by simpa [heq] using he, by simp [heq],
      fun k hk => hbase k (Nat.le_of_lt_succ hk)⟩
  · obtain ⟨-, hnext⟩ := h e le_rfl
    obtain ⟨hin, hget⟩ := hnext hrem
    refine ⟨e / step + 2, Nat.le_add_left _ _, hin, (Nat.lt_div_mul_add hstep).le.trans (by simp [Nat.succ_mul]), fun k hk => ?_⟩
    rcases Nat.lt_succ_iff_lt_or_eq.mp hk with hlt | rfl
    · exact hbase k (Nat.le_of_lt_succ hlt)
    · exact hget

/-- The loop of INTERP over indices with their end points: each is interpolated, the rest stays (R170). -/
theorem interpFrom_of_endPoints (hstep : 1 ≤ step) (hlast : last ≤ 16384)
    (h : ∀ i < last, EndPoints s.curve sample step i) :
    ∃ curve, interpFrom step last 0 s = .ok () { s with curve := curve } ∧ CurveThrough curve sample step last ∧
      ∀ i, last ≤ i → storeGet curve i = storeGet s.curve i := by
  cases last with
  | zero => exact ⟨s.curve, rfl, fun i hi => absurd hi i.not_lt_zero, fun _ _ => rfl⟩
  | succ e =>
    obtain ⟨n, hn, hin, hend, hs⟩ := exists_sampled_of_endPoints hstep (by omega) fun i hi => h i (Nat.lt_succ_of_le hi)
    obtain ⟨curve, hok, hdone, hkeep⟩ := interpFrom_interpolates (i := 0) (c := e + 1) hstep hn hin (by omega) hs
    exact ⟨curve, hok, fun i hi => hdone i i.zero_le (by omega), fun i hi => hkeep i (.inr (by omega))⟩

/-- What the indices before `last` write does not supply a missing end point of `last`. -/
theorem EndPointMissing.of_kept {written : List (Nat × Word)} (hstep : 1 ≤ step)
    (h : ∀ i < last, EndPoints curve sample step i) (hkeep : ∀ i, last ≤ i → storeGet written i = storeGet curve i)
    (hmiss : EndPointMissing curve step last) : EndPointMissing written step last := by
  rcases hmiss with hnone | ⟨hrem, hnext⟩
  · rcases Nat.lt_or_ge (last / step * step) last with hlt | hge
    · obtain ⟨hget, -⟩ := h _ hlt
      rw [Nat.mul_div_cancel _ hstep, hnone] at hget
      cases hget
    · exact .inl ((hkeep _ hge).trans hnone)
  · have hbeyond : last ≤ (last / step + 1) * step := by
      rw [Nat.succ_mul]
      exact (Nat.lt_div_mul_add hstep).le
    exact .inr ⟨hrem, hnext.imp_right (hkeep _ hbeyond).trans⟩

/-- INTERP over end points that are there up to `last` and missing at it (R170). -/
theorem interp_of_first_missing (hm : m ≤ 16384) (hstep : 1 ≤ m / (n - 1)) (hlast : last < m)
    (h : ∀ i < last, EndPoints s.curve sample (m / (n - 1)) i) (hmiss : EndPointMissing s.curve (m / (n - 1)) last) :
    ∃ curve, interp m n s = .raised (({ s with curve := curve } : State).raise .curveUnwritten) ∧
      CurveThrough curve sample (m / (n - 1)) last ∧ ∀ i, last ≤ i → storeGet curve i = storeGet s.curve i := by
  obtain ⟨curve, hok, hthrough, hkeep⟩ := interpFrom_of_endPoints hstep (by omega) h
  exact ⟨curve, interp_of_missing hok hlast (hmiss.of_kept hstep h hkeep), hthrough, hkeep⟩

/-- Samples that do not reach the end of the curve leave the index after the last of them without an end point (R170). -/
theorem interp_of_unreached (hm : m ≤ 16384) (hn : 1 ≤ n) (hstep : 1 ≤ m / (n - 1))
    (hshort : (n - 1) * (m / (n - 1)) + 1 < m) (hs : Sampled s.curve sample (m / (n - 1)) n)
    (hrest : ∀ i, (n - 1) * (m / (n - 1)) + 1 ≤ i → storeGet s.curve i = none) :
    ∃ curve, interp m n s = .raised (({ s with curve := curve } : State).raise .curveUnwritten) ∧
      CurveThrough curve sample (m / (n - 1)) ((n - 1) * (m / (n - 1)) + 1) ∧
      ∀ i, (n - 1) * (m / (n - 1)) + 1 ≤ i → storeGet curve i = none := by
  generalize hdiv : m / (n - 1) = step at *
  obtain ⟨curve, hok, hdone, hkeep⟩ :=
    interpFrom_interpolates (i := 0) (c := (n - 1) * step + 1) hstep hn (by omega) (by omega) hs
  have hnone : ∀ i, (n - 1) * step + 1 ≤ i → storeGet curve i = none := fun i hi =>
    (hkeep i (.inr (by omega))).trans (hrest i hi)
  have hmiss : EndPointMissing curve step ((n - 1) * step + 1) := by
    rcases Nat.eq_or_lt_of_le hstep with rfl | hlt
    · exact .inl (hnone _ (by simp))
    · refine .inr ⟨?_, .inr (hnone _ ?_)⟩
      · rw [Nat.mul_add_mod_self_right, Nat.mod_eq_of_lt hlt]
        exact one_ne_zero
      · rw [Nat.succ_mul]
        exact (Nat.lt_div_mul_add hstep).le
  refine ⟨curve, interp_of_missing (hdiv ▸ hok) hshort (hdiv ▸ hmiss), fun i hi => hdone i i.zero_le (by omega), hnone⟩

/-! ### The samples -/

theorem metaRead16_of_le {a : Nat} (h : s.metalen.toNat ≤ a + 1) : metaRead16 a s = .raised (s.raise .metaExhausted) := by
  obtain ⟨hlt, -⟩ | ⟨-, hraised⟩ := metaRead16_cases a s
  · omega
  · exact hraised

theorem loadSamples_add (stride a b k : Nat) (s : State) :
    loadSamples stride (a + b) k s = (loadSamples stride a k s).bind fun _ s1 => loadSamples stride b (k + a) s1 := by
  induction a generalizing k s with
  | zero => rw [Nat.zero_add]; rfl
  | succ a ih =>
    rw [Nat.add_right_comm, loadSamples, loadSamples, Res.bind_assoc]
    simp only [ih, Nat.add_assoc, Nat.add_comm 1 a]

/-- Samples cut off by METALEN: those inside it are laid down in the cleared curve, and the next one faults (R168, R169). -/
theorem loadSamples_of_short (hstride : 1 ≤ stride) (hlen : 12 ≤ s.metalen.toNat) (hshort : s.metalen.toNat < 12 + 2 * n) :
    ∃ curve, loadSamples stride n 0 (curveClear s) =
        .raised (({ s with curve := curve } : State).raise .metaExhausted) ∧
      (∀ k, 14 + 2 * k ≤ s.metalen.toNat → storeGet curve (k * stride) = some (meta16 s (12 + 2 * k))) ∧
      ∀ i, (∀ k, 14 + 2 * k ≤ s.metalen.toNat → i ≠ k * stride) → storeGet curve i = none := by
  obtain ⟨a, ha⟩ : ∃ a, a = (s.metalen.toNat - 12) / 2 := ⟨_, rfl⟩
  obtain ⟨b, rfl⟩ : ∃ b, n = a + (b + 1) := ⟨n - a - 1, by omega⟩
  obtain ⟨curve, hok, hsampled, hrest⟩ := loadSamples_curveClear (s := s) (n := a) hstride (by omega)
  refine ⟨curve, ?_, fun k hk => hsampled k (by omega), fun i hi => hrest i fun k hk => hi k (by omega)⟩
  rw [loadSamples_add, hok, Res.bind_ok, loadSamples, metaRead16_of_le (by simp only; omega), Res.bind_raised]

end Sys2Proof.Machine
end

section
/-! PROOFS. The refusals and faults of START, HDR, CINT, CTRIM and HDEC (44_host_commands.md R236 to R247): the faults of the
two loads of a header, the faults of HDR by the class of the header, and the commands. -/

namespace Sys2Proof.Machine

variable {s t : State} {load : State → Res Unit} {step m n : Nat}

/-! ### The loads -/

/-- The count is bad for the depth (42_curve.md R168). -/
theorem badCount_iff : badCount s = true ↔ s.csize.toNat < 2 ∨ 2 ^ s.bps.toNat / (s.csize.toNat - 1) = 0 := by
  simp [badCount]

/-- The faults that both loads of a header make, on `n` samples at the multiples of `step`: `bad` says that the count is
refused, before the curve is cleared; samples cut off by METALEN leave those before at their places, alone (R168, R169). -/
def LoadFaults (load : State → Res Unit) (bad : Prop) (step n : Nat) (s : State) : Prop :=
  (bad → load s = .raised (s.raise .badCount)) ∧
  (¬ bad → 12 ≤ s.metalen.toNat → s.metalen.toNat < 12 + 2 * n → ∃ curve,
    load s = .raised (({ s with curve := curve } : State).raise .metaExhausted) ∧
    (∀ k, 14 + 2 * k ≤ s.metalen.toNat → storeGet curve (k * step) = some (meta16 s (12 + 2 * k))) ∧
    ∀ i, (∀ k, 14 + 2 * k ≤ s.metalen.toNat → i ≠ k * step) → storeGet curve i = none)

theorem loadL2_faults (hm : m = 2 ^ s.bps.toNat) (hn : n = s.csize.toNat) :
    LoadFaults loadL2 (n < 2 ∨ m / (n - 1) = 0) (m / (n - 1)) n s := by
  subst hm hn
  refine ⟨fun hbad => ?_, fun hgood hlen hshort => ?_⟩
  · rw [loadL2, if_pos (badCount_iff.mpr hbad)]
  · obtain ⟨curve, hraised, hloaded, hrest⟩ :=
      loadSamples_of_short (Nat.pos_of_ne_zero fun hzero => hgood (.inr hzero)) hlen hshort
    refine ⟨curve, ?_, hloaded, hrest⟩
    rw [loadL2, if_neg (mt badCount_iff.mp hgood)]
    dsimp only
    rw [hraised, Res.bind_raised]

theorem loadDir_faults (hn : n = s.csize.toNat) : LoadFaults loadDir (n = 0 ∨ 0x4001 < n) 1 n s := by
  subst hn
  refine ⟨fun hbad => ?_, fun hgood hlen hshort => ?_⟩
  · rw [loadDir, if_pos hbad]
  · obtain ⟨curve, hraised, hloaded, hrest⟩ := loadSamples_of_short le_rfl hlen hshort
    exact ⟨curve, by rw [loadDir, if_neg hgood, hraised, Res.bind_raised], hloaded, hrest⟩

/-- LOADL2 with its count and its samples in order is the interpolation and then the split row (R168). -/
theorem loadL2_of_samples {samples : List (Nat × Word)} (hgood : badCount s = false)
    (hload : loadSamples (2 ^ s.bps.toNat / (s.csize.toNat - 1)) s.csize.toNat 0 (curveClear s) =
      .ok () { s with curve := samples }) :
    loadL2 s = (interp (2 ^ s.bps.toNat) s.csize.toNat { s with curve := samples }).bind fun _ s2 =>
      (metaRead16 s2.cfg.splitOff s2).bind fun v s3 => .ok () { s3 with split := v, lossless := false } := by
  rw [loadL2, hgood, if_neg Bool.false_ne_true]
  dsimp only
  rw [hload, Res.bind_ok]

/-- LOADL2 on samples that do not reach the end of the curve: interpolated up to the last sample, and no further (R170). -/
theorem loadL2_of_unreached (hbps : s.bps = 12 ∨ s.bps = 14) (hm : m = 2 ^ s.bps.toNat) (hcount : n = s.csize.toNat)
    (hdiv : step = m / (n - 1)) (hn : 2 ≤ n) (hstep : 1 ≤ step) (hlen : 12 + 2 * n ≤ s.metalen.toNat)
    (hshort : (n - 1) * step + 1 < m) :
    ∃ curve, loadL2 s = .raised (({ s with curve := curve } : State).raise .curveUnwritten) ∧
      CurveThrough curve (fun k => meta16 s (12 + 2 * k)) step ((n - 1) * step + 1) ∧
      ∀ i, (n - 1) * step + 1 ≤ i → storeGet curve i = none := by
  subst hm hcount hdiv
  obtain ⟨samples, hload, hsampled, hrest⟩ := loadSamples_curveClear hstep hlen
  obtain ⟨curve, hraised, hthrough, hnone⟩ :=
    interp_of_unreached (s := { s with curve := samples }) (two_pow_bps_le hbps) (by omega) hstep hshort hsampled
      fun i hi => hrest i fun k hk heq => by
        have hle := Nat.mul_le_mul_right (2 ^ s.bps.toNat / (s.csize.toNat - 1)) (Nat.le_sub_one_of_lt hk)
        omega
  exact ⟨curve, by rw [loadL2_of_samples (badCount_eq_false hn hstep) hload, hraised, Res.bind_raised], hthrough, hnone⟩

/-- LOADL2 with the split row cut off: the curve is interpolated and MAX set (R168). -/
theorem loadL2_of_split_short (hbps : s.bps = 12 ∨ s.bps = 14) (hm : m = 2 ^ s.bps.toNat) (hcount : n = s.csize.toNat)
    (hdiv : step = m / (n - 1)) (hn : 2 ≤ n) (hstep : 1 ≤ step) (hlen : 12 + 2 * n ≤ s.metalen.toNat)
    (hreach : m ≤ (n - 1) * step + 1) (hshort : s.metalen.toNat < s.cfg.splitOff + 2) :
    ∃ curve,
      loadL2 s =
        .raised (({ s with curve := curve, maxReg := BitVec.ofNat 16 m } : State).raise .metaExhausted) ∧
      CurveThrough curve (fun k => meta16 s (12 + 2 * k)) step m ∧
      ∀ i, m ≤ i → storeGet curve i =
        if i = m ∧ (n - 1) * step = m then some (meta16 s (12 + 2 * (n - 1))) else none := by
  subst hm hcount hdiv
  obtain ⟨samples, hload, hsampled, hrest⟩ := loadSamples_curveClear hstep hlen
  obtain ⟨curve, hok, hthrough, hkeep⟩ :=
    interp_interpolates (s := { s with curve := samples }) (two_pow_bps_le hbps) hn hstep hreach hsampled
  refine ⟨curve, ?_, hthrough, fun i hi => (hkeep i hi).trans ?_⟩
  · rw [loadL2_of_samples (badCount_eq_false hn hstep) hload, hok, Res.bind_ok,
      metaRead16_of_le (by simp only; omega), Res.bind_raised]
  · exact hsampled.get_of_le hrest (by omega) (Nat.mul_div_le _ _) hi

/-! ### The header's fields -/

/-- MetaRead16 by METALEN (R161). -/
theorem metaRead16_eq_ite (a : Nat) (s : State) :
    metaRead16 a s = if a + 2 ≤ s.metalen.toNat then .ok (meta16 s a) s else .raised (s.raise .metaExhausted) := by
  split
  · exact metaRead16_of_lt (by omega)
  · exact metaRead16_of_le (by omega)

/-- The seeds and the count cut off by METALEN: those inside it are written (R165). -/
theorem hdrSeeds_of_short (hshort : s.metalen.toNat < 12) :
    hdrSeeds { s with ver := memRead s.metaMem 0 ++ memRead s.metaMem 1 } =
      .raised ((headerFields s).raise .metaExhausted) := by
  have hcases : s.metalen.toNat < 4 ∨ (4 ≤ s.metalen.toNat ∧ s.metalen.toNat < 6) ∨
      (6 ≤ s.metalen.toNat ∧ s.metalen.toNat < 8) ∨ (8 ≤ s.metalen.toNat ∧ s.metalen.toNat < 10) ∨
      10 ≤ s.metalen.toNat := by omega
  rcases hcases with h | h | h | h | h
  all_goals
    simp (disch := omega) only [hdrSeeds, metaRead16_eq_ite, meta16, headerFields, if_pos, if_neg, Res.bind_ok,
      Res.bind_raised]

/-- HDR at a legal depth on a header without both version bytes writes nothing (R165). -/
theorem hdrParse_of_no_version (hbps : s.bps = 12 ∨ s.bps = 14) (hlen : s.metalen.toNat < 2) :
    hdrParse s = .raised (s.raise .metaExhausted) := by
  rw [hdrParse, if_pos (bpsLegal_iff.mpr hbps)]
  obtain ⟨-, hread⟩ | ⟨-, hread⟩ := metaRead8_cases 0 s <;> rw [hread]
  · obtain ⟨hlt, -⟩ | ⟨-, hread⟩ := metaRead8_cases 1 s
    · omega
    · rw [Res.bind_ok, hread, Res.bind_raised]
  · rw [Res.bind_raised]

/-! ### The faults of HDR -/

/-- HDR on a header of a class with a layout is the body of that class (R165). -/
theorem exec_hdr_of_class (hrun : s.run = .idle) (hbps : s.bps = 12 ∨ s.bps = 14) (hlen : 2 ≤ s.metalen.toNat)
    (hload : hdrByClass (hdrClass s.cfg (memRead s.metaMem 0) (memRead s.metaMem 1)) = hdrBody load) :
    exec .hdr s = .next (hdrBody load { s with ver := memRead s.metaMem 0 ++ memRead s.metaMem 1 }).state := by
  rw [exec_hdr_of_idle hrun, hdrParse_of_version hbps hlen, hload]

/-- A header whose load raises has its fields read, and is not trimmed (R165). -/
theorem exec_hdr_of_load_raised (hrun : s.run = .idle) (hbps : s.bps = 12 ∨ s.bps = 14) (hlen : 12 ≤ s.metalen.toNat)
    (hload : hdrByClass (hdrClass s.cfg (memRead s.metaMem 0) (memRead s.metaMem 1)) = hdrBody load)
    (h : load (headerFields s) = .raised t) : exec .hdr s = .next t := by
  rw [exec_hdr_of_class hrun hbps (by omega) hload, hdrBody, hdrSeeds_of_le hlen, Res.bind_ok, h, Res.bind_raised,
    Res.state_raised]

/-- The faults of HDR that the two classes with a layout share (R165, R168, R169). -/
theorem hdr_faults_of_load {bad : Prop} (hrun : s.run = .idle) (hbps : s.bps = 12 ∨ s.bps = 14)
    (hload : hdrByClass (hdrClass s.cfg (memRead s.metaMem 0) (memRead s.metaMem 1)) = hdrBody load)
    (hfaults : 12 ≤ s.metalen.toNat → LoadFaults load bad step n (headerFields s)) :
    (2 ≤ s.metalen.toNat → s.metalen.toNat < 12 → exec .hdr s = .next ((headerFields s).raise .metaExhausted)) ∧
    (12 ≤ s.metalen.toNat → bad → exec .hdr s = .next ((headerFields s).raise .badCount)) ∧
    (12 ≤ s.metalen.toNat → ¬ bad → s.metalen.toNat < 12 + 2 * n → ∃ curve,
      exec .hdr s = .next (({ headerFields s with curve := curve } : State).raise .metaExhausted) ∧
      (∀ k, 14 + 2 * k ≤ s.metalen.toNat → storeGet curve (k * step) = some (meta16 s (12 + 2 * k))) ∧
      ∀ i, (∀ k, 14 + 2 * k ≤ s.metalen.toNat → i ≠ k * step) → storeGet curve i = none) := by
  refine ⟨fun hlen hshort => ?_, fun hlen hbad => ?_, fun hlen hgood hshort => ?_⟩
  · rw [exec_hdr_of_class hrun hbps hlen hload, hdrBody, hdrSeeds_of_short hshort, Res.bind_raised, Res.state_raised]
  · obtain ⟨hcount, -⟩ := hfaults hlen
    exact exec_hdr_of_load_raised hrun hbps hlen hload (hcount hbad)
  · obtain ⟨-, hsamples⟩ := hfaults hlen
    obtain ⟨curve, hraised, hloaded, hrest⟩ := hsamples hgood hlen hshort
    exact ⟨curve, exec_hdr_of_load_raised hrun hbps hlen hload hraised, hloaded, hrest⟩

theorem csize_headerFields (h : 12 ≤ s.metalen.toNat) : (headerFields s).csize = meta16 s 10 := if_pos h

/-- The faults of HDR on a header of class LOSSY2 or DIRECT, in the order they arise (R165, R168 to R170). -/
theorem hdrFaults (hrun : s.run = .idle) (hbps : s.bps = 12 ∨ s.bps = 14) : HdrFaults s := by
  unfold HdrFaults
  intro cls len m n step badCount sample
  refine ⟨fun hlen => ?_, fun hcls => ?_, fun hcls hgood hlen => ?_⟩
  · rw [exec_hdr_of_idle hrun, hdrParse_of_no_version hbps hlen, Res.state_raised]
  · have hcount : 12 ≤ s.metalen.toNat → n = (headerFields s).csize.toNat := fun h12 => by rw [csize_headerFields h12]
    rcases hcls with hcls | hcls
    · have hbad : badCount = (n < 2 ∨ m / (n - 1) = 0) := if_pos hcls
      have hstep : step = m / (n - 1) := if_pos hcls
      rw [hbad, hstep]
      exact hdr_faults_of_load hrun hbps (congrArg hdrByClass hcls) fun h12 => loadL2_faults rfl (hcount h12)
    · have hne : cls ≠ .lossy2 := by rw [hcls]; decide
      have hbad : badCount = (n = 0 ∨ 0x4001 < n) := if_neg hne
      have hstep : step = 1 := if_neg hne
      rw [hbad, hstep]
      exact hdr_faults_of_load hrun hbps (congrArg hdrByClass hcls) fun h12 => loadDir_faults (hcount h12)
  · have hbad : badCount = (n < 2 ∨ m / (n - 1) = 0) := if_pos hcls
    have hstep : step = m / (n - 1) := if_pos hcls
    have h12 : 12 ≤ s.metalen.toNat := by omega
    have hcount : n = (headerFields s).csize.toNat := by rw [csize_headerFields h12]
    rw [hbad, not_or, ← hstep] at hgood
    obtain ⟨hn, hpos⟩ := hgood
    refine ⟨fun hshort => ?_, fun hreach hshort => ?_⟩
    · obtain ⟨curve, hraised, hcurve⟩ := loadL2_of_unreached (s := headerFields s) hbps rfl hcount hstep
        (Nat.not_lt.mp hn) (Nat.pos_of_ne_zero hpos) hlen hshort
      exact ⟨curve, exec_hdr_of_load_raised hrun hbps h12 (congrArg hdrByClass hcls) hraised, hcurve⟩
    · obtain ⟨curve, hraised, hcurve⟩ := loadL2_of_split_short (s := headerFields s) hbps rfl hcount hstep
        (Nat.not_lt.mp hn) (Nat.pos_of_ne_zero hpos) hlen hreach hshort
      exact ⟨curve, exec_hdr_of_load_raised hrun hbps h12 (congrArg hdrByClass hcls) hraised, hcurve⟩

/-! ### The commands -/

/-- START that one of its checks refuses changes nothing else (44_host_commands.md R241). -/
theorem exec_start_of_refused (hrun : s.run = .idle) (hs : startRefused s = true) :
    exec .start s = .next (s.raise .badConfig) := by
  change execStart s = _
  rw [execStart, gate_allowed (by simp [hrun]) (allowIdle_iff.mpr hrun), if_pos hs]

/-- START on a table that does not build leaves what the build left (R241). -/
theorem exec_start_of_failed_build (hrun : s.run = .idle) (hs : startRefused s = false)
    (hb : ¬ Buildable (hromTable s (3 * (if s.bps = 14 then 1 else 0) + 2 * s.lossless.toNat))) :
    ∃ (c : FaultCause) (m : BitVec 5) (slots : List (Nat × Slot)),
      FailedBuild (hromTable s (3 * (if s.bps = 14 then 1 else 0) + 2 * s.lossless.toNat)) s c m slots ∧
      exec .start s = .next (({ s with tvalid := false, hslot := slots, maxlen := m } : State).raise c) := by
  obtain ⟨c, m, slots, hfailed, hraised⟩ := hbuild_of_not_buildable rfl hb
  refine ⟨c, m, slots, hfailed, ?_⟩
  rw [exec_start_of_idle hrun hs, startDecode, hraised, Res.bind_raised, Res.state_raised]

theorem bpsLegal_eq_false (h12 : s.bps ≠ 12) (h14 : s.bps ≠ 14) : bpsLegal s = false := by
  rw [← Bool.not_eq_true, bpsLegal_iff]
  exact fun h => h.elim h12 h14

theorem exec_hdr_of_bad_depth (hrun : s.run = .idle) (hbps : bpsLegal s = false) :
    exec .hdr s = .next (s.raise .badConfig) := by
  rw [exec_hdr_of_idle hrun, hdrParse, hbps]
  rfl

theorem exec_cint_of_bad_depth (hrun : s.run = .idle) (hbps : bpsLegal s = false) :
    exec .cint s = .next (s.raise .badConfig) := by
  rw [exec_cint_of_idle hrun, curveInterpolate, hbps]
  rfl

theorem exec_cint_of_bad_count (hrun : s.run = .idle) (hbps : s.bps = 12 ∨ s.bps = 14) (hcount : badCount s = true) :
    exec .cint s = .next (s.raise .badCount) := by
  rw [exec_cint_of_idle hrun, curveInterpolate, if_pos (bpsLegal_iff.mpr hbps), if_pos hcount, Res.state_raised]

theorem exec_hdec_of_no_table (hrun : s.run = .idle ∨ s.run = .active) (hv : s.tvalid = false) :
    exec .hdec s = .next (s.raise .noTable) := by
  have hf : s.run ≠ .fault := by rcases hrun with h | h <;> simp [h]
  change execHdec s = _
  rw [execHdec, gate_allowed hf (allowIdleActive_iff.mpr hrun), hv]
  rfl

/-- Settles O44: the checks of each command, and the faults of the units behind them. -/
theorem commandRefusals : Obligations.CommandRefusals := by
  intro s
  refine ⟨fun hrun hbad => ?_, fun hrun h12 h14 => ?_, fun hrun hbps hbad => ?_, exec_hdec_of_no_table, ?_, ?_, ?_,
    hdrFaults⟩
  · exact exec_start_of_refused hrun (startRefused_iff.mpr hbad)
  · exact ⟨exec_hdr_of_bad_depth hrun (bpsLegal_eq_false h12 h14), exec_cint_of_bad_depth hrun (bpsLegal_eq_false h12 h14)⟩
  · exact exec_cint_of_bad_count hrun hbps (badCount_iff.mpr hbad)
  · intro table hrun hbps hsplit hmax hb
    exact exec_start_of_failed_build hrun (startRefused_eq_false hbps hsplit hmax) hb
  · intro m hrun hm hle htail hbad
    rw [exec_ctrim_of_idle hrun, ctrim, ctrimFrom_of_unreadable hm hle le_rfl htail hbad, Res.state_raised]
  · intro sample last m step hrun hbps hn hstep hlast hpre hmiss
    obtain ⟨curve, hraised, hthrough, hkeep⟩ := interp_of_first_missing (two_pow_bps_le hbps) hstep hlast hpre hmiss
    refine ⟨curve, ?_, hthrough, hkeep⟩
    rw [exec_cint_of_idle hrun, curveInterpolate, if_pos (bpsLegal_iff.mpr hbps), badCount_eq_false hn hstep,
      if_neg Bool.false_ne_true, hraised, Res.state_raised]

end Sys2Proof.Machine
end

section
/-! PROOFS. The statements of 60_exceptions.md: what fault entry writes (R270), the block without an access (R285), that
every step from a state of the invariant answers a next state (R270), and that no step takes a raster event back (R274). -/

namespace Sys2Proof.Machine

variable {s t u : State}

/-! ### Fault entry, and no access -/

/-- Settles O3: fault entry is `State.raise`, written out. -/
theorem faultEntryWritesTheRecordOnly : Obligations.FaultEntryWritesTheRecordOnly := fun _ _ => rfl

/-- Settles O15: of the cases of a step, the only one with an empty queue waits. -/
theorem noAccessNoChange : Obligations.NoAccessNoChange := by
  intro s hin
  rcases step_cases s with ⟨-, e⟩ | ⟨_, _, _, h, -⟩ | ⟨_, _, h, -⟩ | ⟨_, h, -⟩
  · exact e
  all_goals
    rw [hin] at h
    cases h

/-! ### Every step goes on -/

/-- The outcome is a next state: neither a stop of the model nor a refusal. -/
def Answers (o : Host.Outcome State Fault Refusal) : Prop := ∃ t, o = .next t

theorem Answers.next (s : State) : Answers (.next s) := ⟨s, rfl⟩

theorem Answers.ite {p : Prop} [Decidable p] {o o' : Host.Outcome State Fault Refusal} (h : Answers o)
    (h' : Answers o') : Answers (if p then o else o') := by
  split
  · exact h
  · exact h'

/-- A gate that ignores or refuses answers a state, so only a body let through has to (44_host_commands.md R240). -/
theorem Answers.gate {allow : RunState → Bool} {body : Host.Outcome State Fault Refusal}
    (hbody : allow s.run = true → Answers body) : Answers (gate allow s body) := by
  by_cases hf : s.run = .fault
  · exact ⟨s, gate_fault hf⟩
  · cases ha : allow s.run with
    | true => rw [gate_allowed hf ha]; exact hbody ha
    | false => exact ⟨_, gate_refused hf ha⟩

/-- RUN goes through to the end of the decode, so no turn of its loop stops (43_predictive.md R206). -/
theorem exists_runLoop_of_invariant (h : Invariant s) (hrun : s.run = .active) : ∃ t, runLoop runFuel s = .ok t := by
  obtain ⟨t, ht, -⟩ := runEndsTheDecode s ((inv_iff s).mpr h) hrun
  exact ⟨t, (exec_run_of_active hrun).mp ht⟩

/-- Only the pixel steps of STEP and RUN can stop the model (log entry 5); under the invariant a split has its table. -/
theorem exec_answers (i : Instr) (h : Invariant s) : Answers (exec i s) := by
  cases i with
  | reset => exact .next _
  | hbld n | rdb n => exact .ite (.next _) (.ite (.next _) (.gate fun _ => .next _))
  | step =>
    refine .gate fun ha => ?_
    obtain ⟨t, ht⟩ := exists_pixStep_of_invariant h (allowActive_iff.mp ha)
    exact ⟨t, pixOutcome_eq_next.mpr ht⟩
  | run =>
    refine .gate fun ha => ?_
    obtain ⟨t, ht⟩ := exists_runLoop_of_invariant h (allowActive_iff.mp ha)
    exact ⟨t, pixOutcome_eq_next.mpr ht⟩
  | _ => exact .gate fun _ => .next _

theorem command_answers (w : Word) (h : Invariant s) : Answers (command w s) := by
  rcases command_cases w s with ⟨i, -, e⟩ | ⟨_, -, e⟩ <;> rw [e]
  · exact exec_answers i h
  · exact .next _

theorem hostWrite_answers (addr : Byte) (v : Word) (h : Invariant s) : Answers (hostWrite addr v s) := by
  rcases hostWrite_cases addr v s with ⟨-, -, -, e⟩ | ⟨-, -, e⟩ | ⟨-, -, e⟩ | ⟨-, -, e⟩ <;> rw [e]
  · exact exec_answers .reset h
  · exact .next _
  · exact command_answers v h
  · exact .next _

/-- Settles O52: of the accesses a step serves only a write can stop the model; under the invariant no command does. -/
theorem stepNeverStops : Obligations.StepNeverStops := by
  intro s hinv
  change Answers (step s)
  rcases step_cases s with ⟨-, e⟩ | ⟨addr, v, rest, -, e⟩ | ⟨_, _, -, e⟩ | ⟨_, -, e⟩ <;> rw [e]
  · exact .next _
  · exact hostWrite_answers addr v (((inv_iff s).mp hinv).host rest _ _)
  · exact .next _
  · exact .next _

/-! ### The raster grows -/

/-- The raster of `t` is that of `s` with new events after it (20_memory.md R65). -/
def RasterGrows (s t : State) : Prop := s.raster <+: t.raster

theorem RasterGrows.of_eq (h : t.raster = s.raster) : RasterGrows s t := by
  rw [RasterGrows, h]

theorem RasterGrows.refl (s : State) : RasterGrows s s := .of_eq rfl

theorem RasterGrows.trans (h : RasterGrows s t) (h' : RasterGrows t u) : RasterGrows s u := List.IsPrefix.trans h h'

theorem RasterGrows.bind {α β : Type} {r : Res α} {f : α → State → Res β} (h : RasterGrows s r.state)
    (hf : ∀ a t, RasterGrows t (f a t).state) : RasterGrows s (r.bind f).state :=
  Res.state_bind_of_keeps h fun a t ht => ht.trans (hf a t)

theorem RasterGrows.of_scan_eq (h : t.scan = s.scan) : RasterGrows s t := .of_eq (congrArg Scan.raster h)

theorem BpOnly.rasterGrows {α : Type} {r : Res α} (h : BpOnly s r) : RasterGrows s r.state := by
  rcases h with ⟨_, _, _, rfl⟩ | ⟨_, _, rfl⟩ <;> exact .of_eq rfl

theorem HeaderOnly.rasterGrows (h : HeaderOnly s t) : RasterGrows s t := by
  rw [h]; exact .of_eq rfl

theorem RegisterOnly.rasterGrows (h : RegisterOnly s t) : RasterGrows s t := by
  rw [h]; exact .of_eq rfl

theorem hdec_rasterGrows (s : State) : RasterGrows s (hdec s).state := by
  rcases hdec_frame s with ⟨_, _, _, e⟩ | ⟨_, _, _, -, e⟩ <;> rw [e] <;> exact .of_eq rfl

/-- EMIT is the one operation that writes the raster, and it writes at the end (43_predictive.md R200). -/
theorem emit_rasterGrows (v : Word) (s : State) : RasterGrows s (emit v s) := by
  rcases emit_cases v s with ⟨-, e⟩ | ⟨-, e⟩ <;> rw [e]
  · exact ⟨_, rfl⟩
  · exact .refl s

theorem advance_rasterGrows (s : State) : RasterGrows s (advance s) :=
  .of_eq (congrArg Scan.raster (advance_scan s))

theorem pixelRecord_rasterGrows (len shl raw : Nat) (s : State) : RasterGrows s (pixelRecord len shl raw s).state := by
  have hu : RasterGrows s (predUpd (residual len shl raw) s).2 := .of_scan_eq (predUpd_scan _ s)
  rcases pixelRecord_cases len shl raw s with ⟨-, e⟩ | ⟨-, -, e⟩ | ⟨v, -, -, e⟩ <;> rw [e]
  · exact hu
  · exact hu
  · exact (hu.trans (emit_rasterGrows v _)).trans (advance_rasterGrows _)

theorem pixBody_rasterGrows (s : State) : RasterGrows s (pixBody s).state :=
  RasterGrows.bind (.of_scan_eq (fetchRecord_scan s)) fun _ t => pixelRecord_rasterGrows _ _ _ t

theorem pixStep_rasterGrows (h : pixStep s = .ok t) : RasterGrows s t := by
  have hsplit : RasterGrows s (splitTrans s).state := .of_scan_eq (splitTrans_scan s)
  rcases pixStep_cases h with ⟨-, rfl⟩ | ⟨-, -, e | ⟨s1, e, rfl⟩⟩
  · exact pixBody_rasterGrows s
  · rwa [e] at hsplit
  · rw [e] at hsplit
    exact hsplit.trans (pixBody_rasterGrows s1)

theorem runLoop_rasterGrows {n : Nat} (h : runLoop n s = .ok t) : RasterGrows s t :=
  runLoop_keeps (P := RasterGrows s) (fun _ _ _ hp hs => hs.trans (pixStep_rasterGrows hp)) h (.refl s)

theorem CommandEffect.rasterGrows {w : Word} (h : CommandEffect w s t) : RasterGrows s t := by
  cases h with
  | nop => exact .refl s
  | reset | refused | startRefused | noTable => exact .of_eq rfl
  | hdr => exact (hdrParse_headerOnly s).rasterGrows
  | cint => exact (curveInterpolate_headerOnly s).rasterGrows
  | ctrim => exact (ctrim_headerOnly s).rasterGrows
  | hbld _ n => exact .of_scan_eq (hbuild_scan _ s)
  | start => exact RasterGrows.bind (.of_scan_eq (hbuild_scan _ s)) fun _ _ => .of_eq rfl
  | step _ ht => exact pixStep_rasterGrows ht
  | run _ ht => exact runLoop_rasterGrows ht
  | brst => exact .of_scan_eq (brreset_scan s)
  | rdb _ n => exact (rdbits_bpOnly n.toNat s).rasterGrows.bind fun _ _ => .of_eq rfl
  | hdec => exact (hdec_rasterGrows s).bind fun _ _ => .of_eq rfl

theorem StepEffect.rasterGrows (h : StepEffect s t) : RasterGrows s t := by
  cases h with
  | waits => exact .refl s
  | hardReset | faultReset | ignored => exact .of_eq rfl
  | @read addr rest => exact (serveRead_registerOnly addr.toNat { s with hostIn := rest }).rasterGrows
  | command _ _ he => exact he.rasterGrows
  | @regWrite addr v rest => exact (regWrite_registerOnly addr.toNat v { s with hostIn := rest }).rasterGrows

/-- Settles O54: the raster grows under each effect of a step. -/
theorem rasterOnlyGrows : Obligations.RasterOnlyGrows := by
  intro s t h
  obtain ⟨events, hevents⟩ := (step_effect h).rasterGrows
  exact ⟨events, hevents.symm⟩

end Sys2Proof.Machine
end
